-- ==== Sys2Proof/Word.lean ====
section
/-! DEFINITION. The word types of the STIC core (00_scope rules R8, R13). -/

namespace Sys2Proof

/-- A host data or address word, a stored register word, a card (00_scope R8): 16 bits. -/
abbrev Word := BitVec 16

/-- A shape byte (10_state R34): 8 bits, bit 7 the leftmost pixel (00_scope R13). -/
abbrev Byte := BitVec 8

/-- A palette index (00_scope R13): 4 bits. -/
abbrev Colour := BitVec 4

/-- A packed word (00_scope R13): 8 pixels as nibbles, pixel 0 the most significant. -/
abbrev Packed := BitVec 32

/-- A shape index in the 0x000-0xFFF index space (20_memory R63). -/
abbrev ShapeIndex := BitVec 12

/-- A register address 0x00-0x3F (00_scope R7, REG_COUNT). -/
abbrev RegAddr := BitVec 6

end Sys2Proof
end

