-- ==== Sys2Proof/Syntax.lean ====
section
/-! DEFINITION. The operations of the core: one constructor per row of spec/opcode_table.json (30_encoding rule R83), each with
the arguments its rule lists, the operands DATA, T and TV carried beside the word among them (30_encoding rule R80). -/

namespace Sys2Proof

/-- The target of a gate and of `EV.DEADLINE` (40_register_access R101, R119): 0 the registers, 1 the memory. -/
inductive Gate where
  | reg
  | mem
deriving DecidableEq, Repr

/-- The value kind VK of `EV.DEADLINE` and `EV.ISO` (30_encoding R81): 00 the operand TV, 01 INF, 10 CLOSED. -/
inductive ValueKind where
  | tv
  | inf
  | closed
deriving DecidableEq, Repr

/-- A delivered operation before decoding (30_encoding R80): the transaction word and the operands carried beside it. -/
structure Txn where
  /-- The 20-bit transaction word: KIND 19:18, WIN 17:16, ADDR 15:0. -/
  word : BitVec 20
  /-- DATA, for writes, pokes and `EV.COLL`. -/
  data : Word
  /-- The timestamp T of a host access, in the scheduler's time units (00_scope R12). -/
  t : Nat
  /-- TV, the timestamp `EV.DEADLINE` and `EV.ISO` set when VK = 00. -/
  tv : Nat
deriving DecidableEq, Repr

/-- Why a transaction word is refused (30_encoding R85): the model has no step for it. -/
inductive Reserved where
  /-- KIND = 00 with WIN = 10: a read of TILEWIN. -/
  | tileRead
  /-- KIND = 11 with WIN = 10: a poke of TILEWIN. -/
  | tilePoke
  /-- WIN = 11 with KIND ≠ 00. -/
  | eventKind
  /-- An event code 0x8-0xF. -/
  | eventCode (code : BitVec 4)
  /-- `EV.DEADLINE` or `EV.ISO` with VK = 11. -/
  | valueKind
deriving DecidableEq, Repr

/-- The operations. `a` is the window address, `v` the operand DATA, `t` the timestamp T, `k` a tile-table index. -/
inductive Instr where
  /-- `RD.R.MODE` (R108): read register 0x21. -/
  | rdRMode (t : Nat)
  /-- `RD.R.REG` (R105): read a register other than 0x21. -/
  | rdRReg (a : RegAddr) (t : Nat)
  /-- `RD.R.SHAPE` (R106): read shape memory through the register window, 0x0040-0x3FFF. -/
  | rdRShape (a : BitVec 14) (t : Nat)
  /-- `RD.R.ALIAS` (R107): read the alias space, 0x4000-0xFFFF. -/
  | rdRAlias (a : Word) (t : Nat)
  /-- `WR.R.DE` (R110): write register 0x20. -/
  | wrRDe (v : Word) (t : Nat)
  /-- `WR.R.MODE` (R111): write register 0x21. -/
  | wrRMode (v : Word) (t : Nat)
  /-- `WR.R.BORDER` (R112): write register 0x2C. -/
  | wrRBorder (v : Word) (t : Nat)
  /-- `WR.R.REG` (R109): write a register other than 0x20, 0x21, 0x2C. -/
  | wrRReg (a : RegAddr) (v : Word) (t : Nat)
  /-- `WR.R.HIGH` (R113): write register-window address 0x0040-0xFFFF. -/
  | wrRHigh (a : Word) (v : Word) (t : Nat)
  /-- `PEEK.R` (R114): read any register-window address without gate or side effects. -/
  | peekR (a : Word)
  /-- `POKE.R` (R116): write a register ignoring the gate. -/
  | pokeR (a : RegAddr) (v : Word)
  /-- `POKE.R.HIGH` (R117): poke register-window address 0x0040-0xFFFF. -/
  | pokeRHigh (a : Word) (v : Word)
  /-- `RD.S` (R141): read shape memory. -/
  | rdS (a : Word) (t : Nat)
  /-- `WR.S` (R142): write shape memory. -/
  | wrS (a : Word) (v : Word) (t : Nat)
  /-- `PEEK.S` (R143): read shape memory ignoring the gate. -/
  | peekS (a : Word)
  /-- `POKE.S` (R144): write shape memory ignoring the gate. -/
  | pokeS (a : Word) (v : Word)
  /-- `WR.T` (R160): write a staging entry; T is carried but not tested. -/
  | wrT (k : Word) (v : Word) (t : Nat)
  /-- `PEEK.T` (R161): read a staging entry. -/
  | peekT (k : Word)
  /-- `EV.RESET` (R371). -/
  | evReset
  /-- `EV.RENDER` (R320): render a frame; `drop` is DROP. -/
  | evRender (drop : Bool)
  /-- `EV.LATCH` (R170): latch the video enable. -/
  | evLatch
  /-- `EV.CAPSTART` (R171): start a frame's capture. -/
  | evCapstart
  /-- `EV.CAPROW` (R172): capture one row at phase `p`; `ack` is the scheduler's ACK. -/
  | evCaprow (p : BitVec 4) (ack : Bool)
  /-- `EV.DEADLINE` (R119): set an accessibility deadline. -/
  | evDeadline (target : Gate) (vk : ValueKind) (tv : Nat)
  /-- `EV.ISO` (R120): set the bus-isolation end. -/
  | evIso (vk : ValueKind) (tv : Nat)
  /-- `EV.COLL` (R115): set collision bits of sprite `i`. -/
  | evColl (i : BitVec 3) (bits : Word)
deriving DecidableEq, Repr

end Sys2Proof
end

