-- ==== Sys2Proof/WellFormed.lean ====
section
/-! DEFINITION. Which operations have an encoding that decodes to them (30_encoding rule R83): the ordered table gives each row
the addresses that no earlier row takes. -/

namespace Sys2Proof

/-- The address condition of the operation's row in 30_encoding R83; the other rows admit every argument. -/
def WellFormed : Instr → Bool
  | .rdRReg a _ => a != 0x21
  | .rdRShape a _ => 0x40 ≤ a.toNat
  | .rdRAlias a _ => 0x4000 ≤ a.toNat
  | .wrRReg a _ _ => a != 0x20 && a != 0x21 && a != 0x2C
  | .wrRHigh a _ _ => 0x40 ≤ a.toNat
  | .pokeRHigh a _ => 0x40 ≤ a.toNat
  | .rdRMode _ | .wrRDe _ _ | .wrRMode _ _ | .wrRBorder _ _ | .peekR _ | .pokeR _ _ | .rdS _ _ | .wrS _ _ _ | .peekS _
  | .pokeS _ _ | .wrT _ _ _ | .peekT _ | .evReset | .evRender _ | .evLatch | .evCapstart | .evCaprow _ _
  | .evDeadline _ _ _ | .evIso _ _ | .evColl _ _ => true

end Sys2Proof
end

