-- ==== Sys2Proof/Decode.lean ====
section
/-! DEFINITION. The decoder of transaction words and its encoder (30_encoding rules R80 to R85). -/

namespace Sys2Proof

/-- The field KIND, bits 19:18 (30_encoding R80). -/
inductive Kind where
  | read
  | write
  | peek
  | poke
deriving DecidableEq, Repr

/-- The field WIN, bits 17:16 (30_encoding R80). -/
inductive Win where
  | reg
  | shape
  | tile
  | event
deriving DecidableEq, Repr

/-- KIND by its bits: 00 read (or event), 01 write, 10 peek, 11 poke. -/
def kindOf (b : BitVec 2) : Kind :=
  if b = 0 then .read else if b = 1 then .write else if b = 2 then .peek else .poke

/-- WIN by its bits: 00 REGWIN, 01 SHAPEWIN, 10 TILEWIN, 11 EVENT. -/
def winOf (b : BitVec 2) : Win :=
  if b = 0 then .reg else if b = 1 then .shape else if b = 2 then .tile else .event

/-- The bits of KIND. -/
def kindBits : Kind → BitVec 2
  | .read => 0
  | .write => 1
  | .peek => 2
  | .poke => 3

/-- The bits of WIN. -/
def winBits : Win → BitVec 2
  | .reg => 0
  | .shape => 1
  | .tile => 2
  | .event => 3

/-- VK by its bits (30_encoding R81); 11 is reserved. -/
def valueKindOf (b : BitVec 2) : Option ValueKind :=
  if b = 0 then some .tv else if b = 1 then some .inf else if b = 2 then some .closed else none

/-- The bits of VK. -/
def valueKindBits : ValueKind → BitVec 2
  | .tv => 0
  | .inf => 1
  | .closed => 2

/-- The KIND of a transaction word. -/
def wordKind (w : BitVec 20) : Kind := kindOf (w.extractLsb' 18 2)

/-- The WIN of a transaction word. -/
def wordWin (w : BitVec 20) : Win := winOf (w.extractLsb' 16 2)

/-- The ADDR of a transaction word, bits 15:0. -/
def wordAddr (w : BitVec 20) : Word := w.extractLsb' 0 16

/-- A read of the register window: rows 1 to 4 of 30_encoding R83. -/
def decodeRegRead (a : Word) (t : Nat) : Instr :=
  if a = 0x0021 then .rdRMode t
  else if a.toNat < 0x40 then .rdRReg (a.setWidth 6) t
  else if a.toNat < 0x4000 then .rdRShape (a.setWidth 14) t
  else .rdRAlias a t

/-- A write of the register window: rows 5 to 9 of 30_encoding R83. -/
def decodeRegWrite (a v : Word) (t : Nat) : Instr :=
  if a = 0x0020 then .wrRDe v t
  else if a = 0x0021 then .wrRMode v t
  else if a = 0x002C then .wrRBorder v t
  else if a.toNat < 0x40 then .wrRReg (a.setWidth 6) v t
  else .wrRHigh a v t

/-- A poke of the register window: rows 11 and 12 of 30_encoding R83. -/
def decodeRegPoke (a v : Word) : Instr :=
  if a.toNat < 0x40 then .pokeR (a.setWidth 6) v else .pokeRHigh a v

/-- The target bit of `EV.DEADLINE` (30_encoding R81). -/
def gateOf (b : Bool) : Gate := if b then .mem else .reg

/-- The bit of a target. -/
def gateBit : Gate → Bool
  | .reg => false
  | .mem => true

/-- An event: rows 19 to 26 of 30_encoding R83, the argument bits of R81. ADDR bits an event does not list are ignored. -/
def decodeEvent (a data : Word) (tv : Nat) : Except Reserved Instr :=
  match (a.extractLsb' 12 4).toNat with
  | 0 => .ok .evReset
  | 1 => .ok (.evRender (a.getLsbD 0))
  | 2 => .ok .evLatch
  | 3 => .ok .evCapstart
  | 4 => .ok (.evCaprow (a.extractLsb' 0 4) (a.getLsbD 8))
  | 5 =>
    match valueKindOf (a.extractLsb' 1 2) with
    | some vk => .ok (.evDeadline (gateOf (a.getLsbD 0)) vk tv)
    | none => .error .valueKind
  | 6 =>
    match valueKindOf (a.extractLsb' 1 2) with
    | some vk => .ok (.evIso vk tv)
    | none => .error .valueKind
  | 7 => .ok (.evColl (a.extractLsb' 0 3) data)
  | _ => .error (.eventCode (a.extractLsb' 12 4))

/-- The operation a transaction selects (30_encoding R83), or the reason it is refused (R85). -/
def decode (x : Txn) : Except Reserved Instr :=
  match wordWin x.word, wordKind x.word with
  | .reg, .read => .ok (decodeRegRead (wordAddr x.word) x.t)
  | .reg, .write => .ok (decodeRegWrite (wordAddr x.word) x.data x.t)
  | .reg, .peek => .ok (.peekR (wordAddr x.word))
  | .reg, .poke => .ok (decodeRegPoke (wordAddr x.word) x.data)
  | .shape, .read => .ok (.rdS (wordAddr x.word) x.t)
  | .shape, .write => .ok (.wrS (wordAddr x.word) x.data x.t)
  | .shape, .peek => .ok (.peekS (wordAddr x.word))
  | .shape, .poke => .ok (.pokeS (wordAddr x.word) x.data)
  | .tile, .read => .error .tileRead
  | .tile, .write => .ok (.wrT (wordAddr x.word) x.data x.t)
  | .tile, .peek => .ok (.peekT (wordAddr x.word))
  | .tile, .poke => .error .tilePoke
  | .event, .read => decodeEvent (wordAddr x.word) x.data x.tv
  | .event, .write => .error .eventKind
  | .event, .peek => .error .eventKind
  | .event, .poke => .error .eventKind

/-- The transaction word of a KIND, a WIN and an ADDR (30_encoding R80). -/
def wordOf (k : Kind) (w : Win) (a : Word) : BitVec 20 := kindBits k ++ winBits w ++ a

/-- The transaction that carries a word and none of the side operands. -/
def bareTxn (k : Kind) (w : Win) (a : Word) : Txn := ⟨wordOf k w a, 0, 0, 0⟩

/-- The ADDR of an event: its code and its argument bits (30_encoding R81). -/
def eventAddr (code : BitVec 4) (args : BitVec 12) : Word := code ++ args

/-- The transaction of an operation (30_encoding R80 to R83): its word, and the operands its rule carries; ignored bits and
operands are 0. -/
def encode : Instr → Txn
  | .rdRMode t => { bareTxn .read .reg 0x0021 with t := t }
  | .rdRReg a t => { bareTxn .read .reg (a.setWidth 16) with t := t }
  | .rdRShape a t => { bareTxn .read .reg (a.setWidth 16) with t := t }
  | .rdRAlias a t => { bareTxn .read .reg a with t := t }
  | .wrRDe v t => { bareTxn .write .reg 0x0020 with data := v, t := t }
  | .wrRMode v t => { bareTxn .write .reg 0x0021 with data := v, t := t }
  | .wrRBorder v t => { bareTxn .write .reg 0x002C with data := v, t := t }
  | .wrRReg a v t => { bareTxn .write .reg (a.setWidth 16) with data := v, t := t }
  | .wrRHigh a v t => { bareTxn .write .reg a with data := v, t := t }
  | .peekR a => bareTxn .peek .reg a
  | .pokeR a v => { bareTxn .poke .reg (a.setWidth 16) with data := v }
  | .pokeRHigh a v => { bareTxn .poke .reg a with data := v }
  | .rdS a t => { bareTxn .read .shape a with t := t }
  | .wrS a v t => { bareTxn .write .shape a with data := v, t := t }
  | .peekS a => bareTxn .peek .shape a
  | .pokeS a v => { bareTxn .poke .shape a with data := v }
  | .wrT k v t => { bareTxn .write .tile k with data := v, t := t }
  | .peekT k => bareTxn .peek .tile k
  | .evReset => bareTxn .read .event (eventAddr 0 0)
  | .evRender drop => bareTxn .read .event (eventAddr 1 (0#11 ++ BitVec.ofBool drop))
  | .evLatch => bareTxn .read .event (eventAddr 2 0)
  | .evCapstart => bareTxn .read .event (eventAddr 3 0)
  | .evCaprow p ack => bareTxn .read .event (eventAddr 4 (0#3 ++ BitVec.ofBool ack ++ 0#4 ++ p))
  | .evDeadline g vk tv =>
    { bareTxn .read .event (eventAddr 5 (0#9 ++ valueKindBits vk ++ BitVec.ofBool (gateBit g))) with tv := tv }
  | .evIso vk tv => { bareTxn .read .event (eventAddr 6 (0#9 ++ valueKindBits vk ++ 0#1)) with tv := tv }
  | .evColl i bits => { bareTxn .read .event (eventAddr 7 (0#9 ++ i)) with data := bits }

/-- The transaction whose word is the number `w` and whose side operands are 0, if `w` is a 20-bit word. -/
def txnOfNat (w : Nat) : Option Txn :=
  if w < 2 ^ 20 then some ⟨BitVec.ofNat 20 w, 0, 0, 0⟩ else none

/-- The operation the decoder reads from the word `w` of `nbits` bits, the operands DATA, T and TV zero. A transaction word
has 20 bits, so in whole bytes its bits 23:20 are no part of it and must be 0. -/
def decodeTableWord (_nbits w : Nat) : Option Instr :=
  match txnOfNat w with
  | some x => (decode x).toOption
  | none => none

/-- One row of the ordered table of 30_encoding R83, as spec/opcode_table.json gives it. -/
structure TableRow where
  mnemonic : String
  mask : BitVec 20
  pattern : BitVec 20
deriving DecidableEq, Repr

/-- The ordered table of 30_encoding R83; the first row whose `(word & mask) == match` holds selects the operation. -/
def opcodeTable : List TableRow :=
  [⟨"RD.R.MODE", 0xFFFFF, 0x00021⟩, ⟨"RD.R.REG", 0xFFFC0, 0x00000⟩, ⟨"RD.R.SHAPE", 0xFC000, 0x00000⟩,
   ⟨"RD.R.ALIAS", 0xF0000, 0x00000⟩, ⟨"WR.R.DE", 0xFFFFF, 0x40020⟩, ⟨"WR.R.MODE", 0xFFFFF, 0x40021⟩,
   ⟨"WR.R.BORDER", 0xFFFFF, 0x4002C⟩, ⟨"WR.R.REG", 0xFFFC0, 0x40000⟩, ⟨"WR.R.HIGH", 0xF0000, 0x40000⟩,
   ⟨"PEEK.R", 0xF0000, 0x80000⟩, ⟨"POKE.R", 0xFFFC0, 0xC0000⟩, ⟨"POKE.R.HIGH", 0xF0000, 0xC0000⟩,
   ⟨"RD.S", 0xF0000, 0x10000⟩, ⟨"WR.S", 0xF0000, 0x50000⟩, ⟨"PEEK.S", 0xF0000, 0x90000⟩,
   ⟨"POKE.S", 0xF0000, 0xD0000⟩, ⟨"WR.T", 0xF0000, 0x60000⟩, ⟨"PEEK.T", 0xF0000, 0xA0000⟩] ++
  [⟨"EV.RESET", 0xFF000, 0x30000⟩, ⟨"EV.RENDER", 0xFF000, 0x31000⟩, ⟨"EV.LATCH", 0xFF000, 0x32000⟩,
   ⟨"EV.CAPSTART", 0xFF000, 0x33000⟩, ⟨"EV.CAPROW", 0xFF000, 0x34000⟩, ⟨"EV.DEADLINE", 0xFF000, 0x35000⟩,
   ⟨"EV.ISO", 0xFF000, 0x36000⟩, ⟨"EV.COLL", 0xFF000, 0x37000⟩]

/-- The first row of the table that a word matches (30_encoding R83). -/
def tableRow (w : BitVec 20) : Option TableRow :=
  opcodeTable.find? fun r => w &&& r.mask == r.pattern

/-- The mnemonic of an operation, as spec/opcode_table.json spells it. -/
def mnemonic : Instr → String
  | .rdRMode _ => "RD.R.MODE"
  | .rdRReg _ _ => "RD.R.REG"
  | .rdRShape _ _ => "RD.R.SHAPE"
  | .rdRAlias _ _ => "RD.R.ALIAS"
  | .wrRDe _ _ => "WR.R.DE"
  | .wrRMode _ _ => "WR.R.MODE"
  | .wrRBorder _ _ => "WR.R.BORDER"
  | .wrRReg _ _ _ => "WR.R.REG"
  | .wrRHigh _ _ _ => "WR.R.HIGH"
  | .peekR _ => "PEEK.R"
  | .pokeR _ _ => "POKE.R"
  | .pokeRHigh _ _ => "POKE.R.HIGH"
  | .rdS _ _ => "RD.S"
  | .wrS _ _ _ => "WR.S"
  | .peekS _ => "PEEK.S"
  | .pokeS _ _ => "POKE.S"
  | .wrT _ _ _ => "WR.T"
  | .peekT _ => "PEEK.T"
  | .evReset => "EV.RESET"
  | .evRender _ => "EV.RENDER"
  | .evLatch => "EV.LATCH"
  | .evCapstart => "EV.CAPSTART"
  | .evCaprow _ _ => "EV.CAPROW"
  | .evDeadline _ _ _ => "EV.DEADLINE"
  | .evIso _ _ => "EV.ISO"
  | .evColl _ _ => "EV.COLL"

end Sys2Proof
end

