-- ==== Sys2Proof/Machine/Plane.lean ====
section
/-! DEFINITION. Tables built from a formula, and rectangular planes of pixels (10_state rules R38 to R40). -/

namespace Sys2Proof

/-- The table of `n` entries whose entry `i` is `f i`. -/
def tab {α : Type} (n : Nat) (f : Nat → α) : Vector α n :=
  ⟨((List.range n).map f).toArray, by simp⟩

/-- Entry `i` of a table, or the default value where there is no such entry. -/
def entry {α : Type} [Inhabited α] {n : Nat} (v : Vector α n) (i : Nat) : α :=
  if h : i < n then v[i] else default

/-- The `n`-bit value whose bit `i` is `f i`. -/
def ofBits : (n : Nat) → (Nat → Bool) → BitVec n
  | 0, _ => 0#0
  | n + 1, f => BitVec.cons (f n) (ofBits n f)

/-- A plane of `w` columns and `h` rows (00_scope R14), stored row by row. -/
structure Plane (α : Type) (w h : Nat) where
  rows : Vector (Vector α w) h
deriving DecidableEq, Repr

/-- The plane whose pixel (x, y) is `f x y`. -/
def Plane.ofFn {α : Type} (w h : Nat) (f : Nat → Nat → α) : Plane α w h :=
  ⟨tab h fun y => tab w fun x => f x y⟩

/-- Pixel (x, y) of a plane; the default value outside it (no rule reads there). -/
def Plane.get {α : Type} [Inhabited α] {w h : Nat} (p : Plane α w h) (x y : Nat) : α :=
  if hy : y < h then entry p.rows[y] x else default

/-- The plane that holds `v` everywhere. -/
def Plane.fill {α : Type} (w h : Nat) (v : α) : Plane α w h :=
  Plane.ofFn w h fun _ _ => v

end Sys2Proof
end

