-- ==== Sys2Proof/Config.lean ====
section
/-! DEFINITION. The implementation parameters of the core (00_scope rule R9) as plain data, and its free values.
The spec leaves these values open and says that a model takes them as arguments: `State` holds one `Config`, no operation
changes it, and a statement over all states holds for all parameter values (log 3). The reference values are in
Machine/Reference.lean. -/

namespace Sys2Proof

/-- Parameter `REGWIN_HIGH_WRITE` (40_register_access R113): what a register-window write at 0x40 and up does. -/
inductive HighWrite where
  /-- Nothing (the reference value). -/
  | drop
  /-- The write rule of register `a & 0x3F`. -/
  | lowRegister
deriving DecidableEq, Repr

/-- Parameter `PRIO_MERGE` (45_sprite_renderer R258): how priority combines where sprites overlap. -/
inductive PrioMerge where
  /-- The OR of all covering sprites (the reference value). -/
  | or
  /-- The bit of the sprite composited last. -/
  | winner
deriving DecidableEq, Repr

/-- The parameters. Every field of `FIELDS` is named by the position of its lowest bit (log 4). -/
structure Config where
  /-- `MASKS` (10_state R23): (and_mask, or_mask) of each register. -/
  masks : Vector (Word × Word) 64
  /-- The registers "that read as all-ones and accept no bits" (10_state R23). -/
  unimplemented : List RegAddr
  /-- All-ones on the implemented width (92 D4; 0x3FFF in the reference, so `MASK_HIGH` is no). -/
  allOnes : Word
  /-- `FIELDS` (10_state R22): the first address of MOBX0-7. -/
  mobx : RegAddr
  /-- The first address of MOBY0-7. -/
  moby : RegAddr
  /-- The first address of MOBA0-7. -/
  moba : RegAddr
  /-- The first address of MOBC0-7. -/
  mobc : RegAddr
  /-- The first address of CS0-CS3. -/
  cs : RegAddr
  /-- The address of HDLY. -/
  hdly : RegAddr
  /-- The address of VDLY. -/
  vdly : RegAddr
  /-- The address of EDGE. -/
  edge : RegAddr
  /-- XPOS, 8 bits of MOBX (10_state R24). -/
  xposLo : Nat
  /-- INTR, bit of MOBX. -/
  intrBit : Nat
  /-- VIS, bit of MOBX. -/
  visBit : Nat
  /-- XSIZE, bit of MOBX. -/
  xsizeBit : Nat
  /-- YPOS, 7 bits of MOBY (10_state R25). -/
  yposLo : Nat
  /-- YRES, bit of MOBY. -/
  yresBit : Nat
  /-- YSIZE, 2 bits of MOBY. -/
  ysizeLo : Nat
  /-- XFLIP, bit of MOBY. -/
  xflipBit : Nat
  /-- YFLIP, bit of MOBY. -/
  yflipBit : Nat
  /-- PRIO, bit of MOBA (10_state R26). -/
  prioBit : Nat
  /-- The collision bit of sprite 0 in MOBC; sprite j's stands j above it (10_state R27). -/
  collSpriteLo : Nat
  /-- The tile-foreground collision bit of MOBC. -/
  collTileBit : Nat
  /-- The border collision bit of MOBC. -/
  collBorderBit : Nat
  /-- The colour, 4 bits of each of CS0-CS3 (10_state R28). -/
  csLo : Nat
  /-- The horizontal delay, 3 bits of HDLY. -/
  hdlyLo : Nat
  /-- The vertical delay, 3 bits of VDLY. -/
  vdlyLo : Nat
  /-- EXT_COL, bit of EDGE. -/
  extColBit : Nat
  /-- EXT_ROW, bit of EDGE. -/
  extRowBit : Nat
  /-- `GARBAGE` below `GARBAGE_LOW_LIMIT` (40_register_access R104): the list's length is the limit. -/
  garbageLow : List Word
  /-- `REGWIN_HIGH_WRITE`. -/
  highWrite : HighWrite
  /-- `SHAPE_READ_HIGH` (41_shape_memory R141): bits 15:8 of a shape read. -/
  shapeReadHigh : Byte
  /-- `SHAPE_GARBAGE` (41_shape_memory R140): the addresses whose garbage is not 0xFFFF, with it. -/
  shapeGarbage : List (Word × Word)
  /-- `CSQ_FIELDS` (44_tile_renderer R215): the three bit positions of each quadrant's colour, most significant first. -/
  csqFields : Vector (Nat × Nat × Nat) 4
  /-- `CSQ_ADVANCES`: does bit 13 advance the colour stack on a colored-squares card. -/
  csqAdvances : Bool
  /-- `SPRITE_YRES_BASE` for 8-row sprites (45_sprite_renderer R253), by bits 11:3 of the index. -/
  yresBase8 : Vector ShapeIndex 512
  /-- `SPRITE_YRES_BASE` for 16-row sprites, by bits 11:3 of the index. -/
  yresBase16 : Vector ShapeIndex 512
  /-- `PRIO_MERGE`. -/
  prioMerge : PrioMerge
  /-- `BORDER_GEOM` (46_edge_merge_unpack R304): scanlines of the top and bottom band, EXT_ROW = 0. -/
  bandPlain : Nat
  /-- Scanlines of the top and bottom band, EXT_ROW = 1. -/
  bandExtended : Nat
  /-- Pixels of the left and right border, EXT_COL = 0. -/
  columnPlain : Nat
  /-- Pixels of the left and right border, EXT_COL = 1. -/
  columnExtended : Nat
  /-- `SURFACE_MAP` (46_edge_merge_unpack R305): the display-field pixel (DX, DS) each surface pixel shows. -/
  surfaceMap : Plane (Nat × Nat) 160 200
deriving DecidableEq, Repr

/-- FREE VALUE (46_edge_merge_unpack R301, 92 D27: "any colour 0–15, for each of the 33 seed cells, each render").
`seedColour n cell` is the seed colour of cell `cell` in the `n`-th seeding; it has no body, so nothing can be proved of it. -/
opaque Config.seedColour : Nat → Nat → Colour

/-- The constraints the spec puts on the parameters (92 D4, 40_register_access R104): an unimplemented register has
and_mask 0 and or_mask all-ones on the implemented width, and `GARBAGE_LOW_LIMIT ≤ 0x40`. -/
abbrev Config.wf (c : Config) : Prop :=
  (∀ a ∈ c.unimplemented, entry c.masks a.toNat = (0, c.allOnes)) ∧ c.garbageLow.length ≤ 0x40

end Sys2Proof
end

