-- ==== Sys2Proof/Machine/Reference.lean ====
section
/-! DEFINITION. The reference values of the open parameters (95_test_vectors section 0). The spec supplies `MASKS`, `FIELDS`,
`CSQ_FIELDS` and `SPRITE_YRES_BASE` "from general knowledge, not in source" (93 K2 to K13): PRESUMED, logs 3, 4, 9, 10; the
others are its reference choices: DESIGN CHOICE, logs 5 to 8 and 11 to 13. -/

namespace Sys2Proof

/-- The reference mask table of 10_state R23. -/
def referenceMask (a : Nat) : Word × Word :=
  if a < 0x08 then (0x07FF, 0x3800)
  else if a < 0x10 then (0x0FFF, 0x3000)
  else if a < 0x18 then (0x3FFF, 0x0000)
  else if a < 0x20 then (0x03FF, 0x3C00)
  else if a < 0x28 then (0x0000, 0x3FFF)
  else if a < 0x2D then (0x000F, 0x3FF0)
  else if a < 0x30 then (0x0000, 0x3FFF)
  else if a < 0x32 then (0x0007, 0x3FF8)
  else if a = 0x32 then (0x0003, 0x3FFC)
  else (0x0000, 0x3FFF)

/-- The addresses 10_state R22 lists as unimplemented. -/
def referenceUnimplemented : List RegAddr :=
  (List.range 6).map (fun i => BitVec.ofNat 6 (0x22 + i)) ++ (List.range 3).map (fun i => BitVec.ofNat 6 (0x2D + i)) ++
    (List.range 13).map (fun i => BitVec.ofNat 6 (0x33 + i))

/-- Every parameter at its reference value. -/
def Config.reference : Config where
  masks := tab 64 referenceMask
  unimplemented := referenceUnimplemented
  allOnes := 0x3FFF
  mobx := 0x00
  moby := 0x08
  moba := 0x10
  mobc := 0x18
  cs := 0x28
  hdly := 0x30
  vdly := 0x31
  edge := 0x32
  xposLo := 0
  intrBit := 8
  visBit := 9
  xsizeBit := 10
  yposLo := 0
  yresBit := 7
  ysizeLo := 8
  xflipBit := 10
  yflipBit := 11
  prioBit := 13
  collSpriteLo := 0
  collTileBit := 8
  collBorderBit := 9
  csLo := 0
  hdlyLo := 0
  vdlyLo := 0
  extColBit := 0
  extRowBit := 1
  garbageLow := []
  highWrite := .drop
  shapeReadHigh := 0x00
  shapeGarbage := []
  csqFields := #v[(2, 1, 0), (5, 4, 3), (8, 7, 6), (13, 10, 9)]
  csqAdvances := true
  yresBase8 := tab 512 fun n => BitVec.ofNat 12 (8 * n)
  yresBase16 := tab 512 fun n => BitVec.ofNat 12 (8 * n) &&& ~~~0x008#12
  prioMerge := .or
  bandPlain := 16
  bandExtended := 32
  columnPlain := 8
  columnExtended := 16
  surfaceMap := Plane.ofFn 160 200 fun x y => (x + 8, y + 12)

end Sys2Proof
end

