-- ==== Sys2Proof/Machine/State.lean ====
section
/-! DEFINITION. The state of the core as plain data (10_state), the reasons a step stops (60_exceptions rules R340 to R342), and
the state right after reset (10_state rule R43). -/

namespace Sys2Proof.Machine

/-- Why the machine stops with a fault (60_exceptions R340): the fatal fault and its recorded info. -/
inductive Fault where
  /-- BAD_PHASE(p): raised by `EV.CAPROW` with p outside 3..14 (42_tile_capture R172). Safe: the spec ends the run here. -/
  | badPhase (p : BitVec 4)
  /-- CURSOR_OVERRUN: raised by `EV.CAPROW` when an advance would pass the last staging row (R172). Safe: the spec ends the
  run here. -/
  | cursorOverrun
deriving DecidableEq, Repr

/-- Why the model has no step. -/
inductive Refusal where
  /-- Raised by `exec` for an operation that has no meaning yet. Safe: nothing can be proved of it. No arm raises it. -/
  | notModelled (mnemonic : String)
  /-- Raised by `step` for a transaction word that 30_encoding R85 reserves. Safe: the spec refuses it (60_exceptions R342). -/
  | reserved (why : Reserved)
  /-- Raised by `step` for a host access whose timestamp is below one already delivered (93_implementation_defined U24). Safe:
  the spec refuses it. -/
  | timeReversed
  /-- Raised by `step` for a phase action out of the order of 30_encoding R84 that raises no fault and to which no program of
  95_test_vectors gives an effect (93_implementation_defined U24: "refuse"; log 34). Safe: the spec refuses it. -/
  | eventOutOfOrder
deriving DecidableEq, Repr

/-- The render mode (10_state R29). -/
inductive Mode where
  /-- CS, Color-Stack. -/
  | cs
  /-- FGBG, Foreground/Background. -/
  | fgbg
deriving DecidableEq, Repr

/-- A deadline (00_scope R12): CLOSED, a timestamp, or INF. -/
inductive Deadline where
  | closed
  | time (d : Nat)
  | inf
deriving DecidableEq, Repr

/-- A bounding box (45_sprite_renderer R255): column, scanline, width, height. -/
structure BBox where
  x : Nat
  y : Nat
  w : Nat
  h : Nat
deriving DecidableEq, Repr, Inhabited

/-- The kinds of bus request in scope (42_tile_capture R174). -/
inductive BusRequest where
  | short
  | full
  | shortened
deriving DecidableEq, Repr

/-- What the collision detector receives about one sprite (45_sprite_renderer R260). -/
structure CollSprite where
  bitmap : Vector Word 16
  bbox : BBox
  skip : Bool
  intr : Bool
  step : Nat
  xpos : Nat
  ypos : Nat
deriving DecidableEq, Repr

/-- What the core hands to its environment (60_exceptions R348). -/
inductive Output where
  /-- The value a read or a peek returns to the host. -/
  | value (v : Word)
  /-- `Sink.border_color` (40_register_access R112). -/
  | borderColor (c : Colour)
  /-- `Sink.frame` (46_edge_merge_unpack R320): the surface and the bounding boxes. -/
  | frame (surface : Plane Byte 160 200) (bboxes : Vector BBox 8)
  /-- `Sink.frame_dirty` (46_edge_merge_unpack R321). -/
  | frameDirty (d : Bool)
  /-- `Sink.video_enabled` (46_edge_merge_unpack R321). -/
  | videoEnabled (e : Bool)
  /-- `Sched.bus_request` (42_tile_capture R174). -/
  | busRequest (k : BusRequest)
  /-- `Coll.run` (45_sprite_renderer R260): the sprites and the edge-fixed tile foreground plane. -/
  | collRun (sprites : Vector CollSprite 8) (foreground : Plane Bool 168 104)
deriving DecidableEq, Repr

/-- Shape memory by shape index (20_memory R62, R63): (index, byte) pairs, indices strictly rising, no byte 0. ROM lies at
0x000-0x7FF, RAM at 0x800-0x9FF. -/
abbrev Memory := List Host.Cell

/-- The state of the core (10_state rules R20 to R41), the parameters it was built with, and its ports. -/
structure State where
  /-- The implementation parameters (00_scope R9): fixed, the model's own field (log 3). -/
  cfg : Config
  /-- `reg[0x00..0x3F]` (R20). -/
  regs : Vector Word 64
  /-- `mode` (R29). -/
  mode : Mode
  /-- `reg_dirty` (R30). -/
  regDirty : Bool
  /-- `shape_dirty` (R30). -/
  shapeDirty : Bool
  /-- `tile_dirty` (R30). -/
  tileDirty : Bool
  /-- `pending_enable` (R31). -/
  pendingEnable : Bool
  /-- `live_enable` (R31). -/
  liveEnable : Bool
  /-- `reg_deadline` (R32). -/
  regDeadline : Deadline
  /-- `mem_deadline` (R32). -/
  memDeadline : Deadline
  /-- `iso_end` (R33). -/
  isoEnd : Deadline
  /-- `rom` and `ram` (R34). -/
  mem : Memory
  /-- `staging[0..239]` (R35). -/
  staging : Vector Word 240
  /-- `visible[0..239]` (R35). -/
  visible : Vector Word 240
  /-- `cursor` (R36). -/
  cursor : Nat
  /-- `first_after_start` (R37). -/
  firstAfterStart : Bool
  /-- `TC(X,Y)` (R38). -/
  tc : Plane Colour 168 104
  /-- `TF(X,Y)` (R38). -/
  tf : Plane Bool 168 104
  /-- `last_bg[0..11]` (R38). -/
  lastBg : Vector Colour 12
  /-- `cs_index` (R41). -/
  csIndex : BitVec 2
  /-- `bitmap[0..7][0..15]` (R39), bit 15 of a row the leftmost column. -/
  bitmaps : Vector (Vector Word 16) 8
  /-- The colour of each sprite's colour image (R39, 45_sprite_renderer R254). -/
  imageColour : Vector Colour 8
  /-- `bbox[0..7]` (R39). -/
  bboxes : Vector BBox 8
  /-- `SV(X,s)` (R39). -/
  sv : Plane Bool 168 208
  /-- `SP(X,s)` (R39). -/
  sp : Plane Bool 168 208
  /-- `SC(X,s)` (R39). -/
  sc : Plane Colour 168 208
  /-- `DF(DX,DS)` (R40). -/
  df : Plane Colour 176 224
  /-- `surface` (R40). -/
  surface : Plane Byte 160 200
  /-- The number of the next seed draw: the model's own field (log 14). -/
  draws : Nat
  /-- The greatest timestamp of a host access delivered so far (00_scope R12): the model's own field (log 20). -/
  lastTime : Nat
  /-- The phase of the last sequencer event since the last reset (30_encoding R84): the model's own field (log 34). -/
  lastPhase : Option (BitVec 4)
  /-- The transactions still to be delivered, oldest first: the model's own field (log 1). -/
  inbox : List Txn
  /-- What the core has handed out, oldest first: the model's own field (log 21). -/
  out : List Output
deriving DecidableEq, Repr

/-- The register file right after reset (10_state R43, 70_reset_and_hazards R374), under the given masks. -/
def resetRegs (c : Config) : Vector Word 64 :=
  tab 64 fun a => if a = 0x20 then 0 else (0xFFFF &&& (entry c.masks a).1) ||| (entry c.masks a).2

/-- The construction state (70_reset_and_hazards R370): registers zero, `cursor` 0, `first_after_start` 1. Everything else is a
draw; the values here are DESIGN CHOICE (logs 17 and 18), unsafe: those of program P1 of 95_test_vectors, the deadlines CLOSED. -/
def State.construction : State where
  cfg := Config.reference
  regs := tab 64 fun _ => 0
  mode := .cs
  regDirty := false
  shapeDirty := false
  tileDirty := false
  pendingEnable := false
  liveEnable := false
  regDeadline := .closed
  memDeadline := .closed
  isoEnd := .closed
  mem := []
  staging := tab 240 fun _ => 0
  visible := tab 240 fun _ => 0
  cursor := 0
  firstAfterStart := true
  tc := Plane.fill 168 104 0
  tf := Plane.fill 168 104 false
  lastBg := tab 12 fun _ => 0
  csIndex := 0
  bitmaps := tab 8 fun _ => tab 16 fun _ => 0
  imageColour := tab 8 fun _ => 0
  bboxes := tab 8 fun _ => ⟨0, 0, 0, 0⟩
  sv := Plane.fill 168 208 false
  sp := Plane.fill 168 208 false
  sc := Plane.fill 168 208 0
  df := Plane.fill 176 224 0
  surface := Plane.fill 160 200 0
  draws := 0
  lastTime := 0
  lastPhase := none
  inbox := []
  out := []

/-- The machine right after reset (10_state R43): `EV.RESET` applied to the construction state, with nothing handed out yet. -/
def State.reset : State :=
  { State.construction with
    regs := resetRegs Config.reference
    mode := .fgbg
    regDirty := true
    tileDirty := true
    isoEnd := .inf }

end Sys2Proof.Machine
end

