-- ==== Sys2Proof/Machine/Operands.lean ====
section
/-! DEFINITION. Operand forms: address classification (20_memory rules R61, R62) and the fields of the registers (10_state rules
R24 to R28) and of the cards. -/

namespace Sys2Proof.Machine

/-- The target of a register-window address (20_memory R61). -/
inductive RegTarget where
  /-- 0x00-0x3F: a register. -/
  | reg (a : RegAddr)
  /-- 0x40-0x3FFF: shape memory, at the shape index `addr & 0xFFF` (92 D9). -/
  | shape (i : ShapeIndex)
  /-- 0x4000-0xFFFF: the alias space. -/
  | aliasSpace
deriving DecidableEq, Repr

/-- `classify_reg` (20_memory R61). -/
def classifyReg (a : Word) : RegTarget :=
  if 0x4000 ≤ a.toNat then .aliasSpace
  else if 0x40 ≤ a.toNat then .shape (a.setWidth 12)
  else .reg (a.setWidth 6)

/-- A shape address normalised to the 12-bit index space, `addr & 0xFFF` (20_memory R62, 92 D11). -/
def shapeIndex (a : Word) : ShapeIndex := a.setWidth 12

/-- The cell of shape memory an index reaches (20_memory R62, R63): ROM below 0x800, and the RAM byte `i & 0x1FF`, which lies
at 0x800 and up, from 0x800. -/
def shapeCell (i : ShapeIndex) : Nat :=
  if i.toNat < 0x800 then i.toNat else 0x800 + (i &&& 0x1FF).toNat

/-- The timestamp of a host access on which the scheduler owes its duty (60_exceptions R348: RD and WR at T). A staging write
carries a T that has no duty and is not tested (R348, 42_tile_capture R160); the other operations carry none. -/
def hostTime : Instr → Option Nat
  | .rdRMode t | .rdRReg _ t | .rdRShape _ t | .rdRAlias _ t | .wrRDe _ t | .wrRMode _ t | .wrRBorder _ t | .wrRReg _ _ t
  | .wrRHigh _ _ t | .rdS _ t | .wrS _ _ t => some t
  | .peekR _ | .pokeR _ _ | .pokeRHigh _ _ | .peekS _ | .pokeS _ _ | .wrT _ _ _ | .peekT _ | .evReset | .evRender _ | .evLatch
  | .evCapstart | .evCaprow _ _ | .evDeadline _ _ _ | .evIso _ _ | .evColl _ _ => none

/-- The phase of a phase action, by which its order is tested (30_encoding R84). DESIGN CHOICE (log 34): `EV.DEADLINE`, to which
60_exceptions R348 gives no duty, and `EV.COLL`, which 93_implementation_defined U24 does not name, are not tested; `EV.ISO` and host
accesses may fall between any two events (R84). -/
def eventPhase : Instr → Option (BitVec 4)
  | .evRender _ => some 0
  | .evLatch => some 1
  | .evCapstart => some 2
  | .evCaprow p _ => some p
  | .rdRMode _ | .rdRReg _ _ | .rdRShape _ _ | .rdRAlias _ _ | .wrRDe _ _ | .wrRMode _ _ | .wrRBorder _ _ | .wrRReg _ _ _
  | .wrRHigh _ _ _ | .peekR _ | .pokeR _ _ | .pokeRHigh _ _ | .rdS _ _ | .wrS _ _ _ | .peekS _ | .pokeS _ _ | .wrT _ _ _
  | .peekT _ | .evReset | .evDeadline _ _ _ | .evIso _ _ | .evColl _ _ => none

/-- May the event of phase `q` follow that of phase `p`: the next phase, or phase 0 after phase 14, since phase 15 delivers nothing
(30_encoding R84). DESIGN CHOICE (log 34): two events out of that order may too, because 95_test_vectors gives their effect, although
93_implementation_defined U24 refuses what is out of order: a further `EV.CAPSTART` right after phase 14 (P3, step 16), and a further
`EV.RENDER` right after an `EV.RENDER` (P1, the further `FRAME` after step 28). -/
def phaseFollows (p q : BitVec 4) : Bool :=
  q.toNat == p.toNat + 1 || (p == 14 && q == 0) || (p == 14 && q == 2) || (p == 0 && q == 0)

/-- The bit of a word, false beyond it. -/
def bit (v : Word) (i : Nat) : Bool := v.getLsbD i

/-- The `n`-bit field of a word whose lowest bit is `lo`. -/
def field (v : Word) (lo n : Nat) : BitVec n := v.extractLsb' lo n

/-- The colour bits {12,2,1,0} of a sprite attribute or a Color-Stack card: `((v >> 9) & 8) | (v & 7)`. -/
def foreColour (v : Word) : Colour := (((v >>> 9) &&& 8) ||| (v &&& 7)).setWidth 4

/-- The background bits {12,13,10,9} of a Foreground/Background card: `((v >> 9) & 0xB) | ((v >> 11) & 4)`. -/
def backColour (v : Word) : Colour := (((v >>> 9) &&& 0xB) ||| ((v >>> 11) &&& 4)).setWidth 4

/-- One sprite's decoded registers (45_sprite_renderer R250 to R252). -/
structure Sprite where
  xpos : BitVec 8
  intr : Bool
  vis : Bool
  xsize : Bool
  ypos : BitVec 7
  yres : Bool
  ysize : BitVec 2
  xflip : Bool
  yflip : Bool
  colour : Colour
  prio : Bool
  idx : ShapeIndex
deriving DecidableEq, Repr

/-- Width in pixels, `8 << XSIZE` (45_sprite_renderer R250). -/
def Sprite.width (p : Sprite) : Nat := 8 <<< p.xsize.toNat

/-- Bitmap rows R, `8 << YRES` (45_sprite_renderer R251). -/
def Sprite.rows (p : Sprite) : Nat := 8 <<< p.yres.toNat

/-- Scanlines per bitmap row, `1 << YSIZE` (45_sprite_renderer R251). -/
def Sprite.step (p : Sprite) : Nat := 1 <<< p.ysize.toNat

/-- `SPRITE_HEIGHT_TABLE` (00_scope R7). -/
def spriteHeightTable : Vector Nat 8 := #v[8, 16, 16, 32, 32, 64, 64, 128]

/-- Height in scanlines, the table at the 3-bit size code {YSIZE, YRES} (10_state R25, 45_sprite_renderer R251). -/
def Sprite.height (p : Sprite) : Nat := entry spriteHeightTable (2 * p.ysize.toNat + p.yres.toNat)

end Sys2Proof.Machine
end

