-- ==== Sys2Proof/Machine/Ops.lean ====
section
/-! DEFINITION. The shared operations over the register file, shape memory, the gate and the ports (40_register_access,
41_shape_memory, 60_exceptions). -/

namespace Sys2Proof.Machine

/-- The outcome of one operation. -/
abbrev Result := Host.Outcome State Fault Refusal

/-- `raise Fatal(info)` (60_exceptions R340): the run ends with the recorded info. There is no trap entry, no saved state, no
handler and no return (R345). -/
def raiseFatal (info : Fault) : Result := .fault info

/-- `emit` (00_scope R11), and the value an access returns: appended to what the core has handed out (log 21). -/
def State.emit (s : State) (o : Output) : State := { s with out := s.out ++ [o] }

/-- The greatest timestamp delivered once `i` has been (00_scope R12). -/
def State.timeAfter (s : State) (i : Instr) : Nat := (hostTime i).getD s.lastTime

/-- Is `i` delivered no earlier than the host accesses before it (00_scope R12). -/
def State.timely (s : State) (i : Instr) : Bool := decide (s.lastTime ≤ s.timeAfter i)

/-- The phase of the last phase action once `i` has been delivered. DESIGN CHOICE (log 34): after a reset the sequencer may be at
any phase. -/
def State.phaseAfter (s : State) (i : Instr) : Option (BitVec 4) :=
  if i = .evReset then none else (eventPhase i).or s.lastPhase

/-- Does `i` keep the order of the phase actions (30_encoding R84, `phaseFollows`). DESIGN CHOICE (log 34): the first one since a
reset may be any. -/
def State.inOrder (s : State) (i : Instr) : Bool :=
  match s.lastPhase, eventPhase i with
  | some p, some q => phaseFollows p q
  | none, _ => true
  | some _, none => true

/-- The outcome of an operation out of order: the fault it raises, if it raises one (42_tile_capture R172,
93_implementation_defined U1 and U2), else a refusal (U24). -/
def refuseUnlessFault : Result → Result
  | .fault f => .fault f
  | .next _ => .refused .eventOutOfOrder
  | .refused r => .refused r

/-- What an unlisted cell of shape memory reads as: DESIGN CHOICE 0 (log 19). -/
def Memory.unlisted : Byte := 0

/-- The byte of one cell. -/
def Memory.read : Memory → Nat → Byte
  | [], _ => Memory.unlisted
  | (b, w) :: m, a => if a = b then w else Memory.read m a

/-- Stores a byte in one cell, keeping the canonical form. -/
def Memory.write : Memory → Nat → Byte → Memory
  | [], a, v => if v = Memory.unlisted then [] else [(a, v)]
  | (b, w) :: m, a, v =>
    if a < b then (if v = Memory.unlisted then (b, w) :: m else (a, v) :: (b, w) :: m)
    else if a = b then (if v = Memory.unlisted then m else (a, v) :: m)
    else (b, w) :: Memory.write m a v

/-- Every address of the list is above `a`. -/
def Memory.above (a : Nat) : Memory → Bool
  | [] => true
  | (b, _) :: _ => a < b

/-- The canonical form: indices strictly rising, all below 0xA00, no byte equal to what an unlisted cell reads as. -/
def Memory.wf : Memory → Bool
  | [] => true
  | (a, v) :: m => Memory.above a m && (v != Memory.unlisted) && decide (a < 0xA00) && Memory.wf m

/-- `reg[a]` (00_scope R11). -/
def State.reg (s : State) (a : RegAddr) : Word := entry s.regs a.toNat

/-- `and_mask[a]` (10_state R23). -/
def State.andMask (s : State) (a : RegAddr) : Word := (entry s.cfg.masks a.toNat).1

/-- `or_mask[a]` (10_state R23). -/
def State.orMask (s : State) (a : RegAddr) : Word := (entry s.cfg.masks a.toNat).2

/-- `(v & and_mask[a]) | or_mask[a]` (10_state R20). -/
def State.masked (s : State) (a : RegAddr) (v : Word) : Word := (v &&& s.andMask a) ||| s.orMask a

/-- `Store(a, v)` (40_register_access R102): the masked store; a changed word sets `reg_dirty`. -/
def State.store (s : State) (a : RegAddr) (v : Word) : State :=
  if s.masked a v = s.reg a then s
  else { s with regs := s.regs.set a.toNat (s.masked a v) a.isLt, regDirty := true }

/-- Did `Store(a, v)` change the word (the result `changed` of 40_register_access R102). -/
def State.storeChanges (s : State) (a : RegAddr) (v : Word) : Bool := s.masked a v != s.reg a

/-- `RegValue(a)` (40_register_access R103). -/
def State.regValue (s : State) (a : RegAddr) : Word := s.masked a (s.reg a)

/-- `ShapeValue(i)` (20_memory R63). -/
def State.shapeValue (s : State) (i : ShapeIndex) : Byte := s.mem.read (shapeCell i)

/-- A shape byte on the 16-bit bus: `SHAPE_READ_HIGH` above it (20_memory R66). -/
def State.shapeWord (s : State) (i : ShapeIndex) : Word := s.cfg.shapeReadHigh ++ s.shapeValue i

/-- The shape write of 41_shape_memory R142, its gate passed: dropped below 0x800; a changed byte sets `shape_dirty`. -/
def State.shapeWrite (s : State) (a v : Word) : State :=
  if (shapeIndex a).toNat < 0x800 then s
  else if s.shapeValue (shapeIndex a) = v.setWidth 8 then s
  else { s with mem := s.mem.write (shapeCell (shapeIndex a)) (v.setWidth 8), shapeDirty := true }

/-- `iso_end <= T` (40_register_access R101): INF is above and CLOSED below every timestamp. -/
def Deadline.reachedBy (e : Deadline) (t : Nat) : Bool :=
  match e with
  | .closed => true
  | .time d => d ≤ t
  | .inf => false

/-- `T <= dl` (40_register_access R101). -/
def Deadline.admits (d : Deadline) (t : Nat) : Bool :=
  match d with
  | .closed => false
  | .time e => t ≤ e
  | .inf => true

/-- `dl(g)` (40_register_access R101). -/
def State.deadline (s : State) : Gate → Deadline
  | .reg => s.regDeadline
  | .mem => s.memDeadline

/-- `honoured(g, T)` (40_register_access R101). -/
def State.honoured (s : State) (g : Gate) (t : Nat) : Bool := s.isoEnd.reachedBy t && (s.deadline g).admits t

/-- The deadline an event sets: TV, INF or CLOSED (30_encoding R81). -/
def deadlineOf (vk : ValueKind) (tv : Nat) : Deadline :=
  match vk with
  | .tv => .time tv
  | .inf => .inf
  | .closed => .closed

/-- `GARBAGE(a)` (40_register_access R104): the parameter below its limit (at most 0x40), all-ones from there. -/
def State.garbage (s : State) (a : Word) : Word :=
  if a.toNat < 0x40 then s.cfg.garbageLow.getD a.toNat 0xFFFF else 0xFFFF

/-- `SHAPE_GARBAGE(a)` (41_shape_memory R140). -/
def State.shapeGarbage (s : State) (a : Word) : Word := (s.cfg.shapeGarbage.lookup a).getD 0xFFFF

end Sys2Proof.Machine
end

