-- ==== Sys2Proof/Machine/Flags.lean ====
section
/-! DEFINITION. The flags: the mode, the dirty flags and the video enables (10_state rules R29 to R31). `reg_dirty` is set by
`State.store` and `shape_dirty` by `State.shapeWrite` (Machine/Ops.lean). -/

namespace Sys2Proof.Machine

/-- `ModeSet(m)` (40_register_access R121): a change of mode sets `tile_dirty`. -/
def State.modeSet (s : State) (m : Mode) : State :=
  if s.mode = m then s else { s with mode := m, tileDirty := true }

/-- The pending enable, set by every accepted write to 0x20 (40_register_access R110). -/
def State.setPending (s : State) : State := { s with pendingEnable := true }

/-- Phase 1 (42_tile_capture R170): pending into live, pending cleared; a change of live sets `tile_dirty`. -/
def State.latchEnable (s : State) : State :=
  { s with
    liveEnable := s.pendingEnable
    pendingEnable := false
    tileDirty := s.tileDirty || (s.pendingEnable != s.liveEnable) }

/-- "frame dirty" (46_edge_merge_unpack R321). -/
def State.frameDirty (s : State) : Bool := s.regDirty || s.shapeDirty || s.tileDirty

/-- "Clear per-frame dirty flags" (46_edge_merge_unpack R321). -/
def State.clearDirty (s : State) : State := { s with regDirty := false, shapeDirty := false, tileDirty := false }

end Sys2Proof.Machine
end

