-- ==== Sys2Proof/Machine/Registers.lean ====
section
/-! DEFINITION. The meanings of the register-window operations and of the interface operations on the gate and the collision
registers (40_register_access). -/

namespace Sys2Proof.Machine

/-- The write to 0x20, its gate passed (40_register_access R110). -/
def State.writeDe (s : State) (v : Word) : State := s.setPending.store 0x20 v

/-- The write to 0x21, its gate passed (40_register_access R111). -/
def State.writeMode (s : State) (v : Word) : State := (s.modeSet .fgbg).store 0x21 v

/-- The border colour `reg[0x2C][3:0]` (10_state R28). -/
def State.borderColour (s : State) : Colour := field (s.reg 0x2C) 0 4

/-- The write to 0x2C, its gate passed (40_register_access R112): a changed word notifies the sink. -/
def State.writeBorder (s : State) (v : Word) : State :=
  if s.storeChanges 0x2C v then (s.store 0x2C v).emit (.borderColor (s.store 0x2C v).borderColour) else s

/-- The write rule that 30_encoding R83 selects for `WR.R a`, its gate passed (40_register_access R109 to R112, R116). -/
def State.writeSelected (s : State) (a : RegAddr) (v : Word) : State :=
  if a = 0x20 then s.writeDe v
  else if a = 0x21 then s.writeMode v
  else if a = 0x2C then s.writeBorder v
  else s.store a v

/-- A register-window write at 0x40 and up, its gate passed: parameter `REGWIN_HIGH_WRITE` (40_register_access R113). -/
def State.writeHigh (s : State) (a v : Word) : State :=
  match s.cfg.highWrite with
  | .drop => s
  | .lowRegister => s.writeSelected (a.setWidth 6) v

/-- `RD.R.MODE` (R108). -/
def execRdRMode (t : Nat) (s : State) : Result :=
  if s.honoured .reg t then .next ((s.modeSet .cs).emit (.value ((s.modeSet .cs).regValue 0x21)))
  else .next (s.emit (.value (s.garbage 0x0021)))

/-- `RD.R.REG` (R105). -/
def execRdRReg (a : RegAddr) (t : Nat) (s : State) : Result :=
  .next (s.emit (.value (if s.honoured .reg t then s.regValue a else s.garbage (a.setWidth 16))))

/-- `RD.R.SHAPE` (R106). -/
def execRdRShape (a : BitVec 14) (t : Nat) (s : State) : Result :=
  .next (s.emit (.value (if s.honoured .reg t then s.shapeWord (shapeIndex (a.setWidth 16)) else s.garbage (a.setWidth 16))))

/-- `RD.R.ALIAS` (R107): all-ones, honoured or not. -/
def execRdRAlias (_a : Word) (_t : Nat) (s : State) : Result := .next (s.emit (.value 0xFFFF))

/-- `WR.R.DE` (R110). -/
def execWrRDe (v : Word) (t : Nat) (s : State) : Result := .next (if s.honoured .reg t then s.writeDe v else s)

/-- `WR.R.MODE` (R111). -/
def execWrRMode (v : Word) (t : Nat) (s : State) : Result := .next (if s.honoured .reg t then s.writeMode v else s)

/-- `WR.R.BORDER` (R112). -/
def execWrRBorder (v : Word) (t : Nat) (s : State) : Result := .next (if s.honoured .reg t then s.writeBorder v else s)

/-- `WR.R.REG` (R109). -/
def execWrRReg (a : RegAddr) (v : Word) (t : Nat) (s : State) : Result :=
  .next (if s.honoured .reg t then s.store a v else s)

/-- `WR.R.HIGH` (R113). -/
def execWrRHigh (a v : Word) (t : Nat) (s : State) : Result := .next (if s.honoured .reg t then s.writeHigh a v else s)

/-- `PEEK.R` (R114). -/
def execPeekR (a : Word) (s : State) : Result :=
  .next (s.emit (.value (match classifyReg a with
    | .reg r => s.regValue r
    | .shape i => s.shapeWord i
    | .aliasSpace => 0xFFFF)))

/-- `POKE.R` (R116). -/
def execPokeR (a : RegAddr) (v : Word) (s : State) : Result := .next (s.writeSelected a v)

/-- `POKE.R.HIGH` (R117). -/
def execPokeRHigh (a v : Word) (s : State) : Result := .next (s.writeHigh a v)

/-- `EV.DEADLINE` (R119). -/
def execEvDeadline (target : Gate) (vk : ValueKind) (tv : Nat) (s : State) : Result :=
  match target with
  | .reg => .next { s with regDeadline := deadlineOf vk tv }
  | .mem => .next { s with memDeadline := deadlineOf vk tv }

/-- `EV.ISO` (R120). -/
def execEvIso (vk : ValueKind) (tv : Nat) (s : State) : Result := .next { s with isoEnd := deadlineOf vk tv }

/-- The collision register of sprite `i` (10_state R27). -/
def State.collisionReg (s : State) (i : BitVec 3) : RegAddr := s.cfg.mobc + i.setWidth 6

/-- `EV.COLL` (R115): the detector's bits are ORed in, through the mask. -/
def execEvColl (i : BitVec 3) (bits : Word) (s : State) : Result :=
  .next (s.store (s.collisionReg i) (s.reg (s.collisionReg i) ||| bits))

end Sys2Proof.Machine
end

