-- ==== Sys2Proof/Machine/Expand.lean ====
section
/-! DEFINITION. The pixel-expansion and unpacking tables, as formulas (43_expansion_luts). -/

namespace Sys2Proof.Machine

/-- `EXPAND8(b)` (R190): bit i of the byte becomes nibble i of the word. -/
def expand8 (b : Byte) : Packed := ofBits 32 fun n => b.getLsbD (n / 4)

/-- `REV8(b)` (R191). -/
def rev8 (b : Byte) : Byte := ofBits 8 fun i => b.getLsbD (7 - i)

/-- `DBL8(b)` (R192): bit i becomes bits 2i and 2i+1. -/
def dbl8 (b : Byte) : Word := ofBits 16 fun n => b.getLsbD (n / 2)

/-- `REMAP(b, xsize, xflip)` (R193): a 16-bit row, bit 15 the leftmost pixel. -/
def remap (b : Byte) (xsize xflip : Bool) : Word :=
  match xsize, xflip with
  | false, false => b.setWidth 16 <<< 8
  | false, true => (rev8 b).setWidth 16 <<< 8
  | true, false => dbl8 b
  | true, true => dbl8 (rev8 b)

/-- `EXPAND16(r)` (R194): columns 0..7 and columns 8..15. -/
def expand16 (r : Word) : Packed × Packed := (expand8 (r.extractLsb' 8 8), expand8 (r.extractLsb' 0 8))

/-- `FILL(c)` (R195): `c * 0x11111111`. -/
def fillWord (c : Colour) : Packed := c.setWidth 32 * 0x11111111

/-- `COLOUR(m, f, g)` (R195): the mask selects foreground nibbles, its complement background nibbles. -/
def colourWord (m : Packed) (f g : Colour) : Packed := (m &&& fillWord f) ||| (~~~m &&& fillWord g)

/-- Pixel k of a packed word, `w[31-4k:28-4k]`, k = 0 leftmost (00_scope R13). -/
def pixel (w : Packed) (k : Nat) : Colour := w.extractLsb' (28 - 4 * k) 4

/-- The packed word whose pixel k is `f k` (00_scope R13). -/
def packPixels (f : Nat → Colour) : Packed := ofBits 32 fun n => (f (7 - n / 4)).getLsbD (n % 4)

/-- `UNPACK2(n)` (R196): two byte pixels, the high nibble first. -/
def unpack2 (b : Byte) : Byte × Byte := ((b.extractLsb' 4 4).setWidth 8, (b.extractLsb' 0 4).setWidth 8)

/-- A packed word unpacked byte by byte into 8 byte pixels in screen order (R196). -/
def unpackWord (w : Packed) : List Byte :=
  [24, 16, 8, 0].flatMap fun lo => [(unpack2 (w.extractLsb' lo 8)).1, (unpack2 (w.extractLsb' lo 8)).2]

end Sys2Proof.Machine
end

