-- ==== Sys2Proof/Machine/TileRenderer.lean ====
section
/-! DEFINITION. The tile renderer, stage 1 of `EV.RENDER` (44_tile_renderer). -/

namespace Sys2Proof.Machine

/-- One row of a drawn card (R212): the foreground bits, bit 7 leftmost, and the packed pixels. -/
structure CardRow where
  fg : Byte
  px : Packed
deriving DecidableEq, Repr, Inhabited

/-- A drawn card: its 8 rows. -/
abbrev CardImage := Vector CardRow 8

/-- Card k, `visible[k][13:0]` (10_state R35). -/
def State.card (s : State) (k : Nat) : Word := entry s.visible k &&& 0x3FFF

/-- Is a Color-Stack card a colored-squares card: `card[12:11] = 0b10` (R215). -/
def isSquares (card : Word) : Bool := bit card 12 && !bit card 11

/-- Does a card advance the colour stack (R213; parameter `CSQ_ADVANCES` of R215). -/
def advances (c : Config) (card : Word) : Bool := bit card 13 && (c.csqAdvances || !isSquares card)

/-- The colour-stack index each card of a list is drawn with, the walk starting at index `j` (R213, R218). -/
def stackWalk (c : Config) : BitVec 2 → List Word → List (BitVec 2)
  | _, [] => []
  | j, card :: rest =>
    let j' := if advances c card then j + 1 else j
    j' :: stackWalk c j' rest

/-- The 240 cards in index order (R210). -/
def State.cards (s : State) : List Word := (List.range 240).map s.card

/-- The colour-stack indices of the 240 cards; the index starts at 0 (R213). -/
def State.stackIndices (s : State) : List (BitVec 2) := stackWalk s.cfg 0 s.cards

/-- The colour-stack index card k is drawn with. -/
def State.stackIndexAt (s : State) (k : Nat) : BitVec 2 := s.stackIndices.getD k 0

/-- `CS(j) = reg[0x28 + j][3:0]` (R213). -/
def State.stackColour (s : State) (j : BitVec 2) : Colour := field (s.reg (s.cfg.cs + j.setWidth 6)) s.cfg.csLo 4

/-- The background colour card k is drawn with (R213, R216). -/
def State.background (s : State) (k : Nat) : Colour :=
  match s.mode with
  | .cs => s.stackColour (s.stackIndexAt k)
  | .fgbg => backColour (s.card k)

/-- The 8 rows of the shape at index `idx` drawn with colours f and g (R212). -/
def State.drawShape (s : State) (idx : ShapeIndex) (f g : Colour) : CardImage :=
  tab 8 fun r =>
    let b := s.shapeValue (idx + BitVec.ofNat 12 r)
    ⟨b, colourWord (expand8 b) f g⟩

/-- The shape index of a Color-Stack normal card (R214): bits [11:3], bits 9-10 suppressed in the writable half. -/
def stackCardIndex (card : Word) : ShapeIndex :=
  if bit card 11 then (card &&& 0x0FF8 &&& ~~~0x0600).setWidth 12 else (card &&& 0x0FF8).setWidth 12

/-- The quadrant of row r, column p: q0 top-left, q1 top-right, q2 bottom-left, q3 bottom-right (R215). -/
def quadrant (r p : Nat) : Nat := 2 * (r / 4) + p / 4

/-- `CSQ_FIELD(card, q)` (R215). -/
def squareField (c : Config) (card : Word) (q : Nat) : BitVec 3 :=
  let (b2, b1, b0) := entry c.csqFields q
  BitVec.ofBool (bit card b2) ++ BitVec.ofBool (bit card b1) ++ BitVec.ofBool (bit card b0)

/-- A colored-squares card (R215): field value 7 is the background with the foreground bit off. -/
def drawSquares (c : Config) (card : Word) (bg : Colour) : CardImage :=
  tab 8 fun r =>
    ⟨ofBits 8 fun n => squareField c card (quadrant r (7 - n)) != 7,
     packPixels fun p =>
      if squareField c card (quadrant r p) = 7 then bg else (squareField c card (quadrant r p)).setWidth 4⟩

/-- Card k drawn (R214 to R216). -/
def State.drawCard (s : State) (k : Nat) : CardImage :=
  match s.mode with
  | .cs =>
    if isSquares (s.card k) then drawSquares s.cfg (s.card k) (s.background k)
    else s.drawShape (stackCardIndex (s.card k)) (foreColour (s.card k)) (s.background k)
  | .fgbg => s.drawShape ((s.card k &&& 0x09F8).setWidth 12) ((s.card k &&& 7).setWidth 4) (s.background k)

/-- Does a packed-buffer pixel lie in a seed cell, which no card writes (R211). -/
def isSeed (x y : Nat) : Bool := x < 8 || y < 8

/-- The card that covers packed-buffer pixel (X, Y) outside the seed cells (R211). -/
def cardAt (x y : Nat) : Nat := 20 * (y / 8 - 1) + (x / 8 - 1)

/-- `TileRender()` (R210 to R219). -/
def State.tileRender (s : State) : State :=
  let images : Vector CardImage 240 := tab 240 s.drawCard
  let row := fun x y => entry (entry images (cardAt x y)) (y % 8)
  { s with
    tc := Plane.ofFn 168 104 fun x y => if isSeed x y then s.tc.get x y else pixel (row x y).px (x % 8)
    tf := Plane.ofFn 168 104 fun x y => if isSeed x y then s.tf.get x y else (row x y).fg.getLsbD (7 - x % 8)
    lastBg := tab 12 fun r => s.background (20 * r + 19)
    csIndex := match s.mode with
      | .cs => s.stackIndexAt 239
      | .fgbg => 0 }

end Sys2Proof.Machine
end

