-- ==== Sys2Proof/Machine/Merge.lean ====
section
/-! DEFINITION. Edge fixup, plane merge, delay, border and unpacking, stages 3 to 5 of `EV.RENDER` (46_edge_merge_unpack). -/

namespace Sys2Proof.Machine

/-- The horizontal delay h (10_state R28). -/
def State.hDelay (s : State) : Nat := (field (s.reg s.cfg.hdly) s.cfg.hdlyLo 3).toNat

/-- The vertical delay v (10_state R28). -/
def State.vDelay (s : State) : Nat := (field (s.reg s.cfg.vdly) s.cfg.vdlyLo 3).toNat

/-- `EdgeFixup()` (R290 to R292): TF and SV are cleared where the delay pushes them off the picture. -/
def State.edgeFixup (s : State) : State :=
  let h := s.hDelay
  let v := s.vDelay
  { s with
    tf := Plane.ofFn 168 104 fun x y => if 167 < x + h ∨ 103 < y + v then false else s.tf.get x y
    sv := Plane.ofFn 168 208 fun x sl => if 167 < x + h ∨ 207 < sl + 2 * v then false else s.sv.get x sl }

/-- The number of the 8 × 8 seed cell of a pixel in the top row or the left column (R301): the 21 cells of the top row, then
the 12 below them. -/
def seedCell (x y : Nat) : Nat := if y < 8 then x / 8 else 20 + y / 8

/-- The seed cells get TF = 0 and one drawn colour each (R301); the colours are free values. -/
def State.seedCells (s : State) : State :=
  { s with
    tc := Plane.ofFn 168 104 fun x y => if isSeed x y then Config.seedColour s.draws (seedCell x y) else s.tc.get x y
    tf := Plane.ofFn 168 104 fun x y => if isSeed x y then false else s.tf.get x y
    draws := s.draws + 1 }

/-- `contrib` (R300): is a sprite pixel shown. -/
def spriteShown (vis prio fg : Bool) : Bool := vis && !(prio && fg)

/-- `M(X, s)` (R300): each tile row is shown on two scanlines. -/
def State.merged (s : State) (x sl : Nat) : Colour :=
  if spriteShown (s.sv.get x sl) (s.sp.get x sl) (s.tf.get x (sl / 2)) then s.sc.get x sl else s.tc.get x (sl / 2)

/-- `RowH(s, DX)` (R302): the merged scanline moved right by h pixels, 0 where nothing lands. -/
def State.rowDelayed (s : State) (sl dx : Nat) : Colour :=
  if s.hDelay ≤ dx ∧ dx - s.hDelay ≤ 167 then s.merged (dx - s.hDelay) sl else 0

/-- `DF(DX, DS)` before the border (R303): delayed scanlines moved down by v tile rows. -/
def State.delayed (s : State) (dx ds : Nat) : Colour :=
  if 2 * s.vDelay ≤ ds ∧ ds - 2 * s.vDelay ≤ 207 then s.rowDelayed (ds - 2 * s.vDelay) dx else 0

/-- `TB` (R304). -/
def State.bandSize (s : State) : Nat := if bit (s.reg s.cfg.edge) s.cfg.extRowBit then s.cfg.bandExtended else s.cfg.bandPlain

/-- `LB` (R304). -/
def State.columnSize (s : State) : Nat :=
  if bit (s.reg s.cfg.edge) s.cfg.extColBit then s.cfg.columnExtended else s.cfg.columnPlain

/-- Is a display-field pixel border (R304); both bands and both columns have the same size. -/
def State.inBorder (s : State) (dx ds : Nat) : Bool :=
  decide (ds < s.bandSize) || decide (224 - s.bandSize ≤ ds) || decide (dx < s.columnSize) || decide (176 - s.columnSize ≤ dx)

/-- `DF(DX, DS)` with the border painted (R304). -/
def State.displayPixel (s : State) (dx ds : Nat) : Colour := if s.inBorder dx ds then s.borderColour else s.delayed dx ds

/-- `Merge(); DelayH(); DelayV(); Border()` (R300 to R304). -/
def State.mergeFrame (s : State) : State := { s with df := Plane.ofFn 176 224 s.displayPixel }

/-- Packed word `j` of display-field row `ds` (R302: 22 words a row). -/
def dfWord (df : Plane Colour 176 224) (j ds : Nat) : Packed := packPixels fun k => df.get (8 * j + k) ds

/-- Display-field pixel (DX, DS) as the byte its packed word unpacks to (R305). -/
def unpackedPixel (df : Plane Colour 176 224) (dx ds : Nat) : Byte := (unpackWord (dfWord df (dx / 8) ds)).getD (dx % 8) 0

/-- `Unpack()` (R305): the surface shows the display field through `SURFACE_MAP`. -/
def State.unpack (s : State) : State :=
  { s with
    surface := Plane.ofFn 160 200 fun x y =>
      unpackedPixel s.df (s.cfg.surfaceMap.get x y).1 (s.cfg.surfaceMap.get x y).2 }

end Sys2Proof.Machine
end

