-- ==== Sys2Proof/Machine/Sprites.lean ====
section
/-! DEFINITION. The sprite renderer and compositor, stage 2 of `EV.RENDER` (45_sprite_renderer). -/

namespace Sys2Proof.Machine

/-- The register of sprite `i` in the group that starts at `base` (10_state R22). -/
def spriteReg (base : RegAddr) (i : Nat) : RegAddr := base + BitVec.ofNat 6 i

/-- The shape index of a sprite (R252): bits 3-11, bits 9-10 suppressed in the writable half and in Foreground/Background
mode. -/
def spriteIndex (attr : Word) (m : Mode) : ShapeIndex :=
  if bit attr 11 || m = .fgbg then (attr &&& 0x0FF8 &&& ~~~0x0600).setWidth 12 else (attr &&& 0x0FF8).setWidth 12

/-- Sprite `i` decoded (R250 to R252). -/
def State.sprite (s : State) (i : Nat) : Sprite :=
  let x := s.reg (spriteReg s.cfg.mobx i)
  let y := s.reg (spriteReg s.cfg.moby i)
  let a := s.reg (spriteReg s.cfg.moba i)
  { xpos := field x s.cfg.xposLo 8
    intr := bit x s.cfg.intrBit
    vis := bit x s.cfg.visBit
    xsize := bit x s.cfg.xsizeBit
    ypos := field y s.cfg.yposLo 7
    yres := bit y s.cfg.yresBit
    ysize := field y s.cfg.ysizeLo 2
    xflip := bit y s.cfg.xflipBit
    yflip := bit y s.cfg.yflipBit
    colour := foreColour a
    prio := bit a s.cfg.prioBit
    idx := spriteIndex a s.mode }

/-- `SPRITE_YRES_BASE(idx, YRES)` (R253). -/
def spriteBase (c : Config) (p : Sprite) : ShapeIndex :=
  entry (if p.yres then c.yresBase16 else c.yresBase8) (p.idx >>> 3).toNat

/-- Bitmap row `q` of a sprite (R253): mirrored within the R real rows, remapped, zero beyond them. -/
def State.bitmapRow (s : State) (p : Sprite) (q : Nat) : Word :=
  if q < p.rows then
    remap (s.shapeValue (spriteBase s.cfg p + BitVec.ofNat 12 (if p.yflip then p.rows - 1 - q else q))) p.xsize p.xflip
  else 0

/-- The bounding box of a sprite (R255). -/
def Sprite.bbox (p : Sprite) : BBox := ⟨p.xpos.toNat, 2 * p.ypos.toNat, p.width, p.height⟩

/-- Bitmaps, colour images and bounding boxes of all eight sprites (R253 to R255). -/
def State.buildSprites (s : State) : State :=
  let sprites : Vector Sprite 8 := tab 8 s.sprite
  { s with
    bitmaps := sprites.map fun p => tab 16 fun q => s.bitmapRow p q
    imageColour := sprites.map (·.colour)
    bboxes := sprites.map Sprite.bbox }

/-- Row `q` of `bitmap[i]`. -/
def State.spriteRow (s : State) (i q : Nat) : Word := entry (entry s.bitmaps i) q

/-- Pixel column `c` of row `q` of sprite `i`'s colour image (R254): transparent where the bitmap is clear. -/
def State.imagePixel (s : State) (i q c : Nat) : Option Colour :=
  if bit (s.spriteRow i q) (15 - c) then some (entry s.imageColour i) else none

/-- `ClearPlanes()` (R256): SC is not cleared. -/
def State.clearPlanes (s : State) : State :=
  { s with sv := Plane.fill 168 208 false, sp := Plane.fill 168 208 false }

/-- `skip(i)` (R257). -/
def Sprite.skip (p : Sprite) : Bool :=
  p.xpos.toNat == 0 || decide (168 ≤ p.xpos.toNat) || decide (104 ≤ p.ypos.toNat) || (!p.vis && !p.intr)

/-- Is a sprite composited in a frame that is not dropped (R258). -/
def Sprite.composited (p : Sprite) : Bool := !p.skip && p.vis

/-- Does sprite `i` cover plane pixel (X, s) (R258): the scanline lies in row q = (s - s0) / step of its R rows, the column is
c = X - XPOS of its 16, and the bitmap is set there. The loop over q, t and c of R258 reaches exactly these pixels. -/
def State.covers (u : State) (p : Sprite) (i x s : Nat) : Bool :=
  decide (2 * p.ypos.toNat ≤ s) && decide ((s - 2 * p.ypos.toNat) / p.step < p.rows) && decide (p.xpos.toNat ≤ x) &&
    decide (x - p.xpos.toNat < 16) &&
    bit (u.spriteRow i ((s - 2 * p.ypos.toNat) / p.step)) (15 - (x - p.xpos.toNat))

/-- One pixel of the shared planes: visibility, priority, colour. -/
structure PlanePixel where
  vis : Bool
  prio : Bool
  colour : Colour
deriving DecidableEq, Repr, Inhabited

/-- `Composite(i)` at one pixel (R258). -/
def State.compositeOne (u : State) (p : Sprite) (i x s : Nat) (old : PlanePixel) : PlanePixel :=
  if p.composited && u.covers p i x s then
    { vis := true
      prio := match u.cfg.prioMerge with
        | .or => old.prio || p.prio
        | .winner => p.prio
      colour := p.colour }
  else old

/-- The compositing order (R259): 7, 6, …, 0. -/
def compositeOrder : List Nat := [7, 6, 5, 4, 3, 2, 1, 0]

/-- A plane pixel after all eight sprites (R258, R259). -/
def State.compositePixel (u : State) (sprites : Vector Sprite 8) (x s : Nat) : PlanePixel :=
  compositeOrder.foldl (fun old i => if h : i < 8 then u.compositeOne sprites[i] i x s old else old)
    ⟨u.sv.get x s, u.sp.get x s, u.sc.get x s⟩

/-- The compositing of a frame that is not dropped (R257 to R259). -/
def State.composite (u : State) : State :=
  let sprites : Vector Sprite 8 := tab 8 u.sprite
  let pixels := Plane.ofFn 168 208 (u.compositePixel sprites)
  { u with
    sv := Plane.ofFn 168 208 fun x s => (pixels.get x s).vis
    sp := Plane.ofFn 168 208 fun x s => (pixels.get x s).prio
    sc := Plane.ofFn 168 208 fun x s => (pixels.get x s).colour }

/-- What the collision detector receives about sprite `i` (R260). -/
def State.collSprite (s : State) (i : Nat) : CollSprite :=
  let p := s.sprite i
  { bitmap := entry s.bitmaps i
    bbox := entry s.bboxes i
    skip := p.skip
    intr := p.intr
    step := p.step
    xpos := p.xpos.toNat
    ypos := p.ypos.toNat }

/-- `emit Coll.run` (R260, 46_edge_merge_unpack R320). -/
def State.emitColl (s : State) : State := s.emit (.collRun (tab 8 s.collSprite) s.tf)

/-- Has sprite `i` collided with sprite `j` (10_state R27): a view of its collision register. -/
def State.collidedWithSprite (s : State) (i j : Nat) : Bool :=
  bit (s.reg (spriteReg s.cfg.mobc i)) (s.cfg.collSpriteLo + j)

/-- Has sprite `i` collided with the tile foreground (10_state R27). -/
def State.collidedWithTile (s : State) (i : Nat) : Bool := bit (s.reg (spriteReg s.cfg.mobc i)) s.cfg.collTileBit

/-- Has sprite `i` collided with the border (10_state R27). -/
def State.collidedWithBorder (s : State) (i : Nat) : Bool := bit (s.reg (spriteReg s.cfg.mobc i)) s.cfg.collBorderBit

end Sys2Proof.Machine
end

