-- ==== Sys2Proof/Machine/Render.lean ====
section
/-! DEFINITION. The meaning of `EV.RENDER` (46_edge_merge_unpack rules R320, R321). -/

namespace Sys2Proof.Machine

/-- `SinkReport()` (R321). -/
def State.sinkReport (s : State) : State :=
  ((s.emit (.frameDirty s.frameDirty)).emit (.videoEnabled s.pendingEnable)).clearDirty

/-- Stages 1 to 3: tiles, sprites, and the edge fixup; a dropped frame is not composited (R320). -/
def State.renderPlanes (s : State) (drop : Bool) : State :=
  let built := s.tileRender.buildSprites.clearPlanes
  (if drop then built else built.composite).edgeFixup

/-- Stages 4 and 5: merge, delay, border, unpack, and the frame handed to the sink (R320). -/
def State.showFrame (s : State) : State :=
  let shown := s.seedCells.mergeFrame.unpack
  shown.emit (.frame shown.surface shown.bboxes)

/-- The render pipeline of one frame (R320); the collision hand-over always runs. -/
def State.renderFrame (s : State) (drop : Bool) : State :=
  let planes := s.renderPlanes drop
  (if drop then planes else planes.showFrame).emitColl

/-- `EV.RENDER` (R320): renders only while video is enabled, reports to the sink always. -/
def execEvRender (drop : Bool) (s : State) : Result :=
  .next (if s.liveEnable then s.renderFrame drop else s).sinkReport

end Sys2Proof.Machine
end

