-- ==== Sys2Proof/Machine/Reset.lean ====
section
/-! DEFINITION. The meaning of `EV.RESET` (70_reset_and_hazards rules R371, R372). -/

namespace Sys2Proof.Machine

/-- "zero all registers" (R371); sets no flag. -/
def State.zeroRegs (s : State) : State := { s with regs := tab 64 fun _ => 0 }

/-- The addresses of the synthetic writes, in increasing order, 0x20 skipped (R371). -/
def syntheticAddrs : List RegAddr := ((List.range 64).map (BitVec.ofNat 6)).filter (· != 0x20)

/-- "63 synthetic writes of all-ones" through the write rules, the gate taken as honoured (R371). -/
def State.syntheticWrites (s : State) : State := syntheticAddrs.foldl (fun u a => u.writeSelected a 0xFFFF) s

/-- `ResetControl()` (R372). -/
def State.resetControl (s : State) : State :=
  { s with cursor := 0, firstAfterStart := true, regDeadline := .closed, memDeadline := .closed, isoEnd := .inf }

/-- `EV.RESET` (R371). -/
def execEvReset (s : State) : Result := .next s.zeroRegs.syntheticWrites.resetControl

end Sys2Proof.Machine
end

