-- ==== Sys2Proof/Machine/Shape.lean ====
section
/-! DEFINITION. The meanings of the shape-window operations (41_shape_memory). -/

namespace Sys2Proof.Machine

/-- `RD.S` (R141). -/
def execRdS (a : Word) (t : Nat) (s : State) : Result :=
  .next (s.emit (.value (if s.honoured .mem t then s.shapeWord (shapeIndex a) else s.shapeGarbage a)))

/-- `WR.S` (R142). -/
def execWrS (a v : Word) (t : Nat) (s : State) : Result := .next (if s.honoured .mem t then s.shapeWrite a v else s)

/-- `PEEK.S` (R143). -/
def execPeekS (a : Word) (s : State) : Result := .next (s.emit (.value (s.shapeWord (shapeIndex a))))

/-- `POKE.S` (R144). -/
def execPokeS (a v : Word) (s : State) : Result := .next (s.shapeWrite a v)

end Sys2Proof.Machine
end

