-- ==== Sys2Proof/Machine/Tiles.lean ====
section
/-! DEFINITION. The meanings of the tile-window operations and of the capture events (42_tile_capture). -/

namespace Sys2Proof.Machine

/-- `WR.T` (R160): ungated, all 16 bits stored, an index of 240 or more dropped. T is carried but not tested. -/
def execWrT (k v : Word) (_t : Nat) (s : State) : Result :=
  .next (if h : k.toNat < 240 then { s with staging := s.staging.set k.toNat v h } else s)

/-- `PEEK.T` (R161). -/
def execPeekT (k : Word) (s : State) : Result :=
  .next (s.emit (.value (if k.toNat < 240 then entry s.staging k.toNat else 0xFFFF)))

/-- A bus request, asserted only while video is enabled (42_tile_capture R171, R172). -/
def State.requestBus (s : State) (k : BusRequest) : State := if s.liveEnable then s.emit (.busRequest k) else s

/-- `EV.LATCH` (R170). -/
def execEvLatch (s : State) : Result := .next s.latchEnable

/-- `EV.CAPSTART` (R171). -/
def execEvCapstart (s : State) : Result := .next ({ s with cursor := 0, firstAfterStart := true }.requestBus .short)

/-- The staging cursor a capture copies from (R172): the first row after phase 2 is not advanced; later rows advance by 20
when the scheduler acknowledges. -/
def State.captureCursor (s : State) (ack : Bool) : Nat :=
  if s.firstAfterStart then s.cursor else if ack then s.cursor + 20 else s.cursor

/-- The visible table after staging entries `cursor..cursor+19` are copied into visible row `row` (R172). -/
def copyRow (staging visible : Vector Word 240) (cursor row : Nat) : Vector Word 240 :=
  tab 240 fun k => if k / 20 = row then entry staging (cursor + k % 20) else entry visible k

/-- `EV.CAPROW` (R172): the phase test precedes the cursor test (60_exceptions R343). -/
def execEvCaprow (p : BitVec 4) (ack : Bool) (s : State) : Result :=
  if p.toNat < 3 ∨ 14 < p.toNat then raiseFatal (.badPhase p)
  else if s.firstAfterStart = false ∧ ack = true ∧ 220 < s.cursor + 20 then raiseFatal .cursorOverrun
  else
    .next ({ s with
      cursor := s.captureCursor ack
      firstAfterStart := false
      visible := copyRow s.staging s.visible (s.captureCursor ack) (p.toNat - 3) }.requestBus
        (if p = 14 then .shortened else .full))

end Sys2Proof.Machine
end

