-- ==== Sys2Proof/Machine/Dispatch.lean ====
section
/-! DEFINITION. The dispatch of operations to their meanings: one arm per constructor of Instr. -/

namespace Sys2Proof.Machine

/-- The meaning of an operation. -/
def exec (i : Instr) (s : State) : Host.Outcome State Fault Refusal :=
  match i with
  | .rdRMode t => Sys2Proof.Machine.execRdRMode t s
  | .rdRReg a t => Sys2Proof.Machine.execRdRReg a t s
  | .rdRShape a t => Sys2Proof.Machine.execRdRShape a t s
  | .rdRAlias a t => Sys2Proof.Machine.execRdRAlias a t s
  | .wrRDe v t => Sys2Proof.Machine.execWrRDe v t s
  | .wrRMode v t => Sys2Proof.Machine.execWrRMode v t s
  | .wrRBorder v t => Sys2Proof.Machine.execWrRBorder v t s
  | .wrRReg a v t => Sys2Proof.Machine.execWrRReg a v t s
  | .wrRHigh a v t => Sys2Proof.Machine.execWrRHigh a v t s
  | .peekR a => Sys2Proof.Machine.execPeekR a s
  | .pokeR a v => Sys2Proof.Machine.execPokeR a v s
  | .pokeRHigh a v => Sys2Proof.Machine.execPokeRHigh a v s
  | .rdS a t => Sys2Proof.Machine.execRdS a t s
  | .wrS a v t => Sys2Proof.Machine.execWrS a v t s
  | .peekS a => Sys2Proof.Machine.execPeekS a s
  | .pokeS a v => Sys2Proof.Machine.execPokeS a v s
  | .wrT k v t => Sys2Proof.Machine.execWrT k v t s
  | .peekT k => Sys2Proof.Machine.execPeekT k s
  | .evReset => Sys2Proof.Machine.execEvReset s
  | .evRender drop => Sys2Proof.Machine.execEvRender drop s
  | .evLatch => Sys2Proof.Machine.execEvLatch s
  | .evCapstart => Sys2Proof.Machine.execEvCapstart s
  | .evCaprow p ack => Sys2Proof.Machine.execEvCaprow p ack s
  | .evDeadline target vk tv => Sys2Proof.Machine.execEvDeadline target vk tv s
  | .evIso vk tv => Sys2Proof.Machine.execEvIso vk tv s
  | .evColl j bits => Sys2Proof.Machine.execEvColl j bits s

end Sys2Proof.Machine
end

