-- ==== Sys2Proof/Machine/Step.lean ====
section
/-! DEFINITION. One step: the oldest transaction not yet delivered is decoded and executed (20_memory rule R70). -/

namespace Sys2Proof.Machine

/-- The state in which the operation of the oldest transaction is executed: it is taken, and its time and phase are noted. -/
def State.taken (s : State) (rest : List Txn) (i : Instr) : State :=
  { s with inbox := rest, lastTime := s.timeAfter i, lastPhase := s.phaseAfter i }

/-- One step. With nothing delivered the core does nothing (00_scope R2, log 1). There is no step for a reserved word (30_encoding
R85), for a host access at a time before the last one's (00_scope R12), and for a sequencer event out of order that raises no
fault (30_encoding R84): 93_implementation_defined U23, U24. -/
def step (s : State) : Host.Outcome State Fault Refusal :=
  match s.inbox with
  | [] => .next s
  | x :: rest =>
    match decode x with
    | .error why => .refused (.reserved why)
    | .ok i =>
      if s.timely i then
        if s.inOrder i then exec i (s.taken rest i) else refuseUnlessFault (exec i (s.taken rest i))
      else .refused .timeReversed

/-- `s` with the transaction word `w` delivered next, at the time of the last host access (0 right after reset), DATA and TV
zero, and no order of events to keep. A number that is no 20-bit word delivers nothing. -/
def State.withFetchWord (s : State) (_nbits w : Nat) : State :=
  match txnOfNat w with
  | some x => { s with inbox := { x with t := s.lastTime } :: s.inbox, lastPhase := none }
  | none => s

end Sys2Proof.Machine
end

