-- ==== Sys2Proof/Safety.lean ====
section
/-! DEFINITION. The terms claims use: the invariants of the state, runs over a sequence of operations, and the duties of the
environment that are premises of claims about runs (60_exceptions rule R348). -/

namespace Sys2Proof.Machine

/-- The register invariant (10_state R20): every stored word is already masked. Register 0x20 is left out, which reset leaves at
0 (70_reset_and_hazards R374). -/
abbrev State.RegsMasked (s : State) : Prop := ∀ a : RegAddr, a ≠ 0x20 → s.masked a (s.reg a) = s.reg a

/-- Shape memory is in its canonical form. -/
abbrev State.MemCanonical (s : State) : Prop := Memory.wf s.mem = true

/-- The staging cursor is "an index 0..220 … that is a multiple of 20" (10_state R36). -/
abbrev State.CursorAligned (s : State) : Prop := s.cursor % 20 = 0 ∧ s.cursor ≤ 220

/-- The invariants together. -/
abbrev State.Inv (s : State) : Prop := s.RegsMasked ∧ s.MemCanonical ∧ s.CursorAligned

/-- A sequence of operations applied in order, "the fold of the operation rules over the sequence" (20_memory R70); it stops at
the first fault, after which no operation is applied (60_exceptions R340). -/
def runOps : List Instr → State → Result
  | [], s => .next s
  | i :: rest, s =>
    match exec i s with
    | .next t => runOps rest t
    | .fault f => .fault f
    | .refused r => .refused r

/-- `FRAME_CAPTURE acks` (30_encoding R87): `EV.CAPSTART`, then `EV.CAPROW` 3 to 14 with the given acknowledges. -/
def frameCapture (acks : Nat → Bool) : List Instr :=
  .evCapstart :: (List.range 12).map fun j => .evCaprow (BitVec.ofNat 4 (j + 3)) (acks j)

/-- The environment's duty on time (00_scope R12): the timestamps of the host accesses are non-decreasing. `step` refuses a host
access that breaks it; a claim about `runOps` may take it as a premise. -/
abbrev TimeOrdered (is : List Instr) : Prop := (is.filterMap hostTime).Pairwise (· ≤ ·)

/-- Where the sequencer stands in the order of 30_encoding R84. `reg` and `mem` say whether the `EV.DEADLINE` of that target has
been delivered since the event named. -/
inductive FramePoint where
  /-- No event of a phase yet: the deadlines are set as the boot asks (70_reset_and_hazards R375), and the sequencer may be in
  any phase. -/
  | boot
  /-- Phase 0, after `EV.RENDER`. -/
  | rendered (reg mem : Bool)
  /-- Phase 1, after `EV.LATCH`; `live` is the enable it latched. -/
  | latched (live reg mem : Bool)
  /-- Phases 2 to 14 (and 15, which delivers nothing), after the event of phase `p`. -/
  | capturing (p : Nat)
deriving DecidableEq, Repr

/-- Both deadlines of phase 0, or those of phase 1 that the latched enable calls for, have been delivered (30_encoding R84). -/
def FramePoint.settled : FramePoint → Bool
  | .boot => true
  | .rendered reg mem => reg && mem
  | .latched live reg mem => live || (reg && mem)
  | .capturing _ => true

/-- The point after `EV.DEADLINE`, where R84 has one there: in phase 0 each deadline once, opened for an interval (VK = 00); in
phase 1 each once, left open indefinitely (VK = 01), when the latched enable is 0. -/
def FramePoint.afterDeadline : FramePoint → Gate → ValueKind → Option FramePoint
  | .boot, _, _ => some .boot
  | .rendered false mem, .reg, .tv => some (.rendered true mem)
  | .rendered reg false, .mem, .tv => some (.rendered reg true)
  | .latched false false mem, .reg, .inf => some (.latched false true mem)
  | .latched false reg false, .mem, .inf => some (.latched false reg true)
  | _, _, _ => none

/-- May `EV.RENDER` come here: phase 0 follows phases 14 and 15. -/
def FramePoint.endsFrame : FramePoint → Bool
  | .boot => true
  | .capturing p => p == 14
  | .rendered _ _ | .latched _ _ _ => false

/-- The point after an operation delivered in state `s`, if R84 has it there. Host accesses, `EV.ISO`, `EV.COLL` and `EV.RESET`
may fall between any two events. -/
def FramePoint.after (f : FramePoint) (s : State) : Instr → Option FramePoint
  | .evRender _ => if f.endsFrame then some (.rendered false false) else none
  | .evDeadline g vk _ => f.afterDeadline g vk
  | .evLatch =>
    match f with
    | .boot => some (.latched s.pendingEnable false false)
    | .rendered _ _ => if f.settled then some (.latched s.pendingEnable false false) else none
    | .latched _ _ _ | .capturing _ => none
  | .evCapstart =>
    match f with
    | .boot => some (.capturing 2)
    | .latched _ _ _ => if f.settled then some (.capturing 2) else none
    | .rendered _ _ | .capturing _ => none
  | .evCaprow p _ =>
    if 3 ≤ p.toNat ∧ p.toNat ≤ 14 ∧ (f = .boot ∨ f = .capturing (p.toNat - 1)) then some (.capturing p.toNat) else none
  | .rdRMode _ | .rdRReg _ _ | .rdRShape _ _ | .rdRAlias _ _ | .wrRDe _ _ | .wrRMode _ _ | .wrRBorder _ _ | .wrRReg _ _ _
  | .wrRHigh _ _ _ | .peekR _ | .pokeR _ _ | .pokeRHigh _ _ | .rdS _ _ | .wrS _ _ _ | .peekS _ | .pokeS _ _ | .wrT _ _ _
  | .peekT _ | .evReset | .evIso _ _ | .evColl _ _ => some f

/-- The environment's duty on the sequencer's events (30_encoding R84), those of the deadlines included, over a run from `s`, the
sequencer at `f`. `step` refuses an event whose phase is out of order, but asks for no deadline (log 34); a claim about `runOps`,
or about the deadlines, may take this as a premise. -/
def FrameOrdered (f : FramePoint) (s : State) : List Instr → Bool
  | [] => true
  | i :: rest =>
    match f.after s i with
    | none => false
    | some g =>
      match exec i s with
      | .next t => FrameOrdered g t rest
      | .fault _ => true
      | .refused _ => true

/-- The collision detector's duty (60_exceptions R348) over a run from `s`: an `EV.COLL` comes after a `Coll.run`, which a render
with video enabled hands over. `ran` says whether one has been. The model does not enforce it (log 34). -/
def CollOrdered (ran : Bool) (s : State) : List Instr → Bool
  | [] => true
  | i :: rest =>
    let ran' := match i with
      | .evRender _ => ran || s.liveEnable
      | _ => ran
    let allowed := match i with
      | .evColl _ _ => ran
      | _ => true
    allowed && match exec i s with
      | .next t => CollOrdered ran' t rest
      | .fault _ => true
      | .refused _ => true

/-- The environment's duties over a run (60_exceptions R348): "a premise of every claim". -/
abbrev DutiesKept (f : FramePoint) (ran : Bool) (s : State) (is : List Instr) : Prop :=
  TimeOrdered is ∧ FrameOrdered f s is = true ∧ CollOrdered ran s is = true

/-- A host write to the register window that its gate drops (40_register_access R118: an "out-of-window write attempt"). -/
def State.droppedWrite (s : State) : Instr → Bool
  | .wrRDe _ t | .wrRMode _ t | .wrRBorder _ t | .wrRReg _ _ t | .wrRHigh _ _ t => !s.honoured .reg t
  | .rdRMode _ | .rdRReg _ _ | .rdRShape _ _ | .rdRAlias _ _ | .peekR _ | .pokeR _ _ | .pokeRHigh _ _ | .rdS _ _ | .wrS _ _ _
  | .peekS _ | .pokeS _ _ | .wrT _ _ _ | .peekT _ | .evReset | .evRender _ | .evLatch | .evCapstart | .evCaprow _ _
  | .evDeadline _ _ _ | .evIso _ _ | .evColl _ _ => false

/-- The events that move the gate and nothing else (40_register_access R119, R120). -/
def movesGate : Instr → Bool
  | .evDeadline _ _ _ | .evIso _ _ => true
  | .rdRMode _ | .rdRReg _ _ | .rdRShape _ _ | .rdRAlias _ _ | .wrRDe _ _ | .wrRMode _ _ | .wrRBorder _ _ | .wrRReg _ _ _
  | .wrRHigh _ _ _ | .peekR _ | .pokeR _ _ | .pokeRHigh _ _ | .rdS _ _ | .wrS _ _ _ | .peekS _ | .pokeS _ _ | .wrT _ _ _
  | .peekT _ | .evReset | .evRender _ | .evLatch | .evCapstart | .evCaprow _ _ | .evColl _ _ => false

/-- A run from `s` of out-of-window write attempts, each dropped by the gate it meets, and of events that move the gate between
them (40_register_access R118, 95_test_vectors W1). -/
def State.onlyDroppedWrites (s : State) : List Instr → Bool
  | [] => true
  | i :: rest =>
    (movesGate i || s.droppedWrite i) && match exec i s with
      | .next t => t.onlyDroppedWrites rest
      | .fault _ => false
      | .refused _ => false

end Sys2Proof.Machine
end

