-- ==== Sys2Proof/Certificates/Slice0/Obligations.lean ====
section
/-! DEFINITION. The statements for the provers.

How to read them. A conclusion `exec i s = .next u` says that the operation completes. An equation `u = { s with f := …, … }`
is the frame: every field that it does not name, every register, every byte of shape memory (read by `Memory.read`), both tile
tables, every flag, deadline and plane among them, is unchanged. `{ s with f := u.f }` leaves f to the clauses beside it, which
say every entry of it. A statement marked as the model's choice names the log entry; a statement that rests on a decision or a
derivation the spec marks as its own names it and has basis 'derived'. -/

open Sys2Proof Sys2Proof.Machine

/-! ## Encoding and the step -/

/-- Decode after encode (30_encoding R80 to R83; the encoding is the spec's own, decision D1): every well-formed operation, with
every operand, is read back. -/
def Obligations.DecodeEncodeRoundTrip : Prop := ∀ i : Instr, WellFormed i = true → decode (encode i) = .ok i

/-- The decoder yields only well-formed operations (30_encoding R83: each row takes what no earlier row takes). -/
def Obligations.DecodedOperationsWellFormed : Prop := ∀ (x : Txn) (i : Instr), decode x = .ok i → WellFormed i = true

/-- 30_encoding R83 and R85: the decoder selects the first row of the ordered table whose mask and match hold; it refuses
exactly the words no row matches and the two deadline rows with VK = 11. -/
def Obligations.DecodeFollowsOrderedTable : Prop :=
  ∀ x : Txn,
    match decode x with
    | .ok i =>
      (tableRow x.word).map TableRow.mnemonic = some (mnemonic i) ∧
        ((mnemonic i = "EV.DEADLINE" ∨ mnemonic i = "EV.ISO") → x.word.extractLsb' 1 2 ≠ 3)
    | .error .valueKind =>
      ((tableRow x.word).map TableRow.mnemonic = some "EV.DEADLINE" ∨
          (tableRow x.word).map TableRow.mnemonic = some "EV.ISO") ∧
        x.word.extractLsb' 1 2 = 3
    | .error _ => tableRow x.word = none

/-- 30_encoding R85, 60_exceptions R342: each kind of reserved word has no step; it is refused by its name. -/
def Obligations.ReservedWordsRefused : Prop :=
  ∀ (s : State) (x : Txn) (rest : List Txn), s.inbox = x :: rest →
    let kind := x.word.extractLsb' 18 2
    let win := x.word.extractLsb' 16 2
    let code := x.word.extractLsb' 12 4
    (win = 2 → kind = 0 → step s = .refused (.reserved .tileRead)) ∧
    (win = 2 → kind = 3 → step s = .refused (.reserved .tilePoke)) ∧
    (win = 3 → kind ≠ 0 → step s = .refused (.reserved .eventKind)) ∧
    (win = 3 → kind = 0 → 8 ≤ code.toNat → step s = .refused (.reserved (.eventCode code))) ∧
    (win = 3 → kind = 0 → code = 5 ∨ code = 6 → x.word.extractLsb' 1 2 = 3 → step s = .refused (.reserved .valueKind))

/-- Words of 95_test_vectors 2.1 decode to the operations it lists, at least one of every family. -/
def Obligations.TableWordsDecode : Prop :=
  decodeTableWord 24 0x00021 = some (.rdRMode 0) ∧ decodeTableWord 24 0x0003F = some (.rdRReg 0x3F 0) ∧
  decodeTableWord 24 0x03FFF = some (.rdRShape 0x3FFF 0) ∧ decodeTableWord 24 0x4002C = some (.wrRBorder 0 0) ∧
  decodeTableWord 24 0x4002B = some (.wrRReg 0x2B 0 0) ∧ decodeTableWord 24 0xC4020 = some (.pokeRHigh 0x4020 0) ∧
  decodeTableWord 24 0x10805 = some (.rdS 0x0805 0) ∧ decodeTableWord 24 0xD0800 = some (.pokeS 0x0800 0) ∧
  decodeTableWord 24 0x60015 = some (.wrT 21 0 0) ∧ decodeTableWord 24 0x30FFF = some .evReset ∧
  decodeTableWord 24 0x3400E = some (.evCaprow 14 false) ∧ decodeTableWord 24 0x35005 = some (.evDeadline .mem .closed 0) ∧
  decodeTableWord 24 0x37003 = some (.evColl 3 0) ∧ decodeTableWord 24 0x20005 = none

/-- A step decodes the oldest transaction and executes it in the state from which it has been taken (20_memory R70; the inbox is
the model's form of delivery, log 1). A host access RD or WR (KIND 00 or 01, WIN 00 or 01) must come no earlier than the greatest T
delivered before, which it then becomes (00_scope R12; log 20). A phase action must be due after the last one: the next phase,
or 0 after 14 (30_encoding R84). Three clauses of `due` are no rule of the spec but the model's choice (DESIGN CHOICEs of log 34): that
`EV.CAPSTART` is due right after phase 14, that `EV.RENDER` is due right after `EV.RENDER`, and that with `lastPhase = none`, as after
a reset, any phase action is due. What comes too early is refused; so is a phase action that is not due, unless it faults
(93_implementation_defined U24, U1, U2). -/
def Obligations.StepRunsDecodedOperation : Prop :=
  ∀ (s : State) (x : Txn) (rest : List Txn) (i : Instr), s.inbox = x :: rest → decode x = .ok i →
    let timed := (x.word.extractLsb' 18 2 = 0 ∨ x.word.extractLsb' 18 2 = 1) ∧
      (x.word.extractLsb' 16 2 = 0 ∨ x.word.extractLsb' 16 2 = 1)
    let due : Prop := match i with
      | .evRender _ => s.lastPhase = none ∨ s.lastPhase = some 14 ∨ s.lastPhase = some 0
      | .evLatch => s.lastPhase = none ∨ s.lastPhase = some 0
      | .evCapstart => s.lastPhase = none ∨ s.lastPhase = some 1 ∨ s.lastPhase = some 14
      | .evCaprow p _ => s.lastPhase = none ∨ 3 ≤ p.toNat ∧ s.lastPhase = some (p - 1)
      | _ => True
    let phase : Option (BitVec 4) := match i with
      | .evReset => none
      | .evRender _ => some 0
      | .evLatch => some 1
      | .evCapstart => some 2
      | .evCaprow p _ => some p
      | _ => s.lastPhase
    let u : State := { s with inbox := rest, lastTime := if timed then x.t else s.lastTime, lastPhase := phase }
    (timed → x.t < s.lastTime → step s = .refused .timeReversed) ∧
    ((timed → s.lastTime ≤ x.t) →
      (due → step s = exec i u) ∧
      (¬ due → (∀ f : Fault, exec i u = .fault f → step s = .fault f) ∧
        ∀ t : State, exec i u = .next t → step s = .refused .eventOutOfOrder))

/-- A step with nothing delivered changes nothing; any step takes at most one transaction, what it hands out comes after
everything handed out before, and the greatest timestamp delivered never decreases (model's choice, logs 1, 20 and 21). -/
def Obligations.StepConsumesOneTransaction : Prop :=
  (∀ s : State, s.inbox = [] → step s = .next s) ∧
  ∀ s t : State, step s = .next t → t.inbox = s.inbox.tail ∧ (∃ more, t.out = s.out ++ more) ∧ s.lastTime ≤ t.lastTime

/-! ## Invariants -/

/-- The register invariant of 10_state R20 is kept by every step. -/
def Obligations.RegisterMasksKept : Prop := ∀ s t : State, s.RegsMasked → step s = .next t → t.RegsMasked

/-- Shape memory stays in its canonical form in every step (the representation is the model's, log 19). -/
def Obligations.ShapeMemoryFormKept : Prop := ∀ s t : State, s.MemCanonical → step s = .next t → t.MemCanonical

/-- The staging cursor stays a multiple of 20 from 0 to 220 (10_state R36), whatever the order of the events. -/
def Obligations.CursorKeptAligned : Prop := ∀ s t : State, s.CursorAligned → step s = .next t → t.CursorAligned

/-- The three invariants hold right after reset. That the registers are masked holds under the reference MASKS (log 3) and the
cursor is 0 (10_state R43); that shape memory is in its canonical form is the model's choice alone: its representation (log 19)
and its contents at reset (logs 17 and 18). -/
def Obligations.InvariantsHoldAtReset : Prop := State.reset.Inv

/-- No step changes the implementation parameters (00_scope R9; they are a field of the state by the model's choice, log 3). -/
def Obligations.ParametersNeverChange : Prop := ∀ s t : State, step s = .next t → t.cfg = s.cfg

/-! ## Reset and the gate -/

/-- 10_state R43, under the reference MASKS (log 3, PRESUMED): the state right after reset is what `EV.RESET` makes of the
construction state (70_reset_and_hazards R370). The register words 0x3FFF and the border colour 0xF are those of the reference
MASKS; the values of what the spec leaves a draw are the model's choice (logs 17 and 18), and so is that nothing has been handed
out yet (log 21). -/
def Obligations.ResetStateIsResetEvent : Prop :=
  exec .evReset State.construction = .next { State.reset with out := [.borderColor 0xF] } ∧
  (∀ a : RegAddr, State.construction.reg a = 0) ∧
  (∀ a : RegAddr, a ≠ 0x20 → State.reset.reg a = 0x3FFF) ∧ State.reset.reg 0x20 = 0 ∧ State.reset.regValue 0x20 = 0x3FFF ∧
  State.reset.mode = .fgbg ∧ State.reset.regDirty = true ∧ State.reset.regDeadline = .closed ∧
  State.reset.memDeadline = .closed ∧ State.reset.isoEnd = .inf ∧ State.reset.cursor = 0 ∧ State.reset.firstAfterStart = true

/-- 70_reset_and_hazards R371 to R374 (that the synthetic writes bypass the gate is decision D31): `EV.RESET` completes from
every state; every register but 0x20 holds `0xFFFF & and_mask | or_mask`, 0x20 holds 0 and reads its or_mask; mode
Foreground/Background; the border colour is announced when its word is not 0; the control state is reset; everything else is
unchanged. -/
def Obligations.ResetEventLeaves : Prop :=
  ∀ s : State, ∃ u : State, exec .evReset s = .next u ∧
    (∀ a : RegAddr, u.reg a = if a = 0x20 then 0 else (0xFFFF &&& s.andMask a) ||| s.orMask a) ∧
    u.regValue 0x20 = s.orMask 0x20 ∧
    (u.regDirty = true ↔ s.regDirty = true ∨ ∃ a : RegAddr, a ≠ 0x20 ∧ (0xFFFF &&& s.andMask a) ||| s.orMask a ≠ 0) ∧
    u = { s with
      regs := u.regs
      regDirty := u.regDirty
      mode := .fgbg
      tileDirty := s.tileDirty || (s.mode != .fgbg)
      cursor := 0
      firstAfterStart := true
      regDeadline := .closed
      memDeadline := .closed
      isoEnd := .inf
      out := s.out ++ (if (0xFFFF &&& s.andMask 0x2C) ||| s.orMask 0x2C = 0 then []
        else [.borderColor (((0xFFFF &&& s.andMask 0x2C) ||| s.orMask 0x2C).extractLsb' 0 4)]) }

/-- 40_register_access R101: an access at T is honoured iff `iso_end ≤ T ≤ deadline`, CLOSED below and INF above every
timestamp; right after reset none is (70_reset_and_hazards R372). -/
def Obligations.GateWindow : Prop :=
  (∀ (s : State) (g : Gate) (t : Nat), s.honoured g t = true ↔
    (s.isoEnd = .closed ∨ ∃ e, s.isoEnd = .time e ∧ e ≤ t) ∧
    ((match g with | .reg => s.regDeadline | .mem => s.memDeadline) = .inf ∨
      ∃ d, (match g with | .reg => s.regDeadline | .mem => s.memDeadline) = .time d ∧ t ≤ d)) ∧
  ∀ (g : Gate) (t : Nat), State.reset.honoured g t = false

/-- 60_exceptions R346: the window is opened and closed only by `EV.DEADLINE` and `EV.ISO`; reset closes it. -/
def Obligations.GateChangesOnlyByEvents : Prop :=
  ∀ (i : Instr) (s t : State), exec i s = .next t →
    t.regDeadline ≠ s.regDeadline ∨ t.memDeadline ≠ s.memDeadline ∨ t.isoEnd ≠ s.isoEnd →
    i = .evReset ∨ (∃ g vk tv, i = .evDeadline g vk tv) ∨ ∃ vk tv, i = .evIso vk tv

/-- 40_register_access R119 and R120 (that no order is enforced is decision D39): the events set the deadline they name to TV,
INF or CLOSED and change nothing else. -/
def Obligations.DeadlineAndIsolationEvents : Prop :=
  ∀ (s : State) (tv : Nat),
    exec (.evDeadline .reg .tv tv) s = .next { s with regDeadline := .time tv } ∧
    exec (.evDeadline .reg .inf tv) s = .next { s with regDeadline := .inf } ∧
    exec (.evDeadline .reg .closed tv) s = .next { s with regDeadline := .closed } ∧
    exec (.evDeadline .mem .tv tv) s = .next { s with memDeadline := .time tv } ∧
    exec (.evDeadline .mem .inf tv) s = .next { s with memDeadline := .inf } ∧
    exec (.evDeadline .mem .closed tv) s = .next { s with memDeadline := .closed } ∧
    exec (.evIso .tv tv) s = .next { s with isoEnd := .time tv } ∧
    exec (.evIso .inf tv) s = .next { s with isoEnd := .inf } ∧
    exec (.evIso .closed tv) s = .next { s with isoEnd := .closed }

/-! ## The register window -/

/-- 40_register_access R102 and R103: the masked store, its `changed` result, its dirty flag and its frame; the register read
value. -/
def Obligations.MaskedStoreAndReadValue : Prop :=
  (∀ (s : State) (a : RegAddr) (v : Word),
    let nv := (v &&& s.andMask a) ||| s.orMask a
    (∀ b : RegAddr, (s.store a v).reg b = if b = a then nv else s.reg b) ∧
    s.storeChanges a v = (nv != s.reg a) ∧
    s.store a v = { s with regs := (s.store a v).regs, regDirty := s.regDirty || (nv != s.reg a) }) ∧
  ∀ (s : State) (a : RegAddr), s.regValue a = (s.reg a &&& s.andMask a) ||| s.orMask a ∧
    (s.RegsMasked → a ≠ 0x20 → s.regValue a = s.reg a)

/-- 40_register_access R108 and R121 (that a mode already in force marks nothing is decision D16; that an un-honoured read does
not switch is decision D6): an honoured read of 0x21 selects Color-Stack mode (a change marks the tile output dirty) and returns
the register value; an un-honoured one returns garbage and does not switch; a peek of 0x21 does not switch; a read in Color-Stack
mode only returns its value, so repeated reads are idempotent. -/
def Obligations.ModeReadSelectsColorStack : Prop :=
  ∀ (s : State) (t : Nat),
    (s.honoured .reg t = true → exec (.rdRMode t) s = .next { s with
      mode := .cs
      tileDirty := s.tileDirty || (s.mode != .cs)
      out := s.out ++ [.value ((s.reg 0x21 &&& s.andMask 0x21) ||| s.orMask 0x21)] }) ∧
    (s.honoured .reg t = false → exec (.rdRMode t) s = .next { s with
      out := s.out ++ [.value (if 0x21 < s.cfg.garbageLow.length then s.cfg.garbageLow.getD 0x21 0xFFFF else 0xFFFF)] }) ∧
    (s.honoured .reg t = true → s.mode = .cs → exec (.rdRMode t) s = .next { s with
      out := s.out ++ [.value ((s.reg 0x21 &&& s.andMask 0x21) ||| s.orMask 0x21)] }) ∧
    exec (.peekR 0x21) s = .next { s with out := s.out ++ [.value ((s.reg 0x21 &&& s.andMask 0x21) ||| s.orMask 0x21)] }

/-- 40_register_access R105: a read returns the masked register inside the window and garbage outside it, and has no side
effect. -/
def Obligations.RegisterReadGated : Prop :=
  ∀ (s : State) (a : RegAddr) (t : Nat), a ≠ 0x21 →
    (s.honoured .reg t = true → exec (.rdRReg a t) s = .next { s with
      out := s.out ++ [.value ((s.reg a &&& s.andMask a) ||| s.orMask a)] }) ∧
    (s.honoured .reg t = false → exec (.rdRReg a t) s = .next { s with
      out := s.out ++ [.value (if a.toNat < s.cfg.garbageLow.length then s.cfg.garbageLow.getD a.toNat 0xFFFF else 0xFFFF)] })

/-- 40_register_access R106 (the gate and the 12-bit index are decision D9): shape memory through the register window, the ROM
byte below 0x800 and the RAM byte `a & 0x1FF` from there, under the register gate. -/
def Obligations.ShapeReadThroughRegisterWindow : Prop :=
  ∀ (s : State) (a : BitVec 14) (t : Nat), 0x40 ≤ a.toNat →
    let i := a.toNat % 0x1000
    (s.honoured .reg t = true → exec (.rdRShape a t) s = .next { s with
      out := s.out ++ [.value (s.cfg.shapeReadHigh ++ s.mem.read (if i < 0x800 then i else 0x800 + i % 0x200))] }) ∧
    (s.honoured .reg t = false → exec (.rdRShape a t) s = .next { s with out := s.out ++ [.value 0xFFFF] })

/-- 40_register_access R107: the alias space reads all-ones, in or out of the window, and never switches the mode. -/
def Obligations.AliasReadsAllOnes : Prop :=
  ∀ (s : State) (a : Word) (t : Nat), 0x4000 ≤ a.toNat →
    exec (.rdRAlias a t) s = .next { s with out := s.out ++ [.value 0xFFFF] }

/-- 40_register_access R110: an honoured write of 0x20 sets the pending enable whatever its data and stores the masked word; a
dropped one changes nothing. -/
def Obligations.DisplayEnableWrite : Prop :=
  ∀ (s : State) (v : Word) (t : Nat),
    (s.honoured .reg t = true → ∃ u : State, exec (.wrRDe v t) s = .next u ∧
      (∀ b : RegAddr, u.reg b = if b = 0x20 then (v &&& s.andMask 0x20) ||| s.orMask 0x20 else s.reg b) ∧
      u = { s with
        regs := u.regs
        pendingEnable := true
        regDirty := s.regDirty || ((v &&& s.andMask 0x20) ||| s.orMask 0x20 != s.reg 0x20) }) ∧
    (s.honoured .reg t = false → exec (.wrRDe v t) s = .next s)

/-- 40_register_access R111 and R121 (that a mode already in force marks nothing is decision D16; that a dropped write leaves the
mode is decision D6): an honoured write of 0x21 selects Foreground/Background mode whatever its data (a change marks the
tile output dirty) and stores the masked word; a dropped one changes nothing. -/
def Obligations.ModeWriteSelectsForeBack : Prop :=
  ∀ (s : State) (v : Word) (t : Nat),
    (s.honoured .reg t = true → ∃ u : State, exec (.wrRMode v t) s = .next u ∧
      (∀ b : RegAddr, u.reg b = if b = 0x21 then (v &&& s.andMask 0x21) ||| s.orMask 0x21 else s.reg b) ∧
      u = { s with
        regs := u.regs
        mode := .fgbg
        tileDirty := s.tileDirty || (s.mode != .fgbg)
        regDirty := s.regDirty || ((v &&& s.andMask 0x21) ||| s.orMask 0x21 != s.reg 0x21) }) ∧
    (s.honoured .reg t = false → exec (.wrRMode v t) s = .next s)

/-- 40_register_access R112: an honoured write of 0x2C stores the masked word and notifies the sink of the new border colour
exactly when the word changes; a dropped one changes nothing. -/
def Obligations.BorderWriteNotifies : Prop :=
  ∀ (s : State) (v : Word) (t : Nat),
    let nv := (v &&& s.andMask 0x2C) ||| s.orMask 0x2C
    (s.honoured .reg t = true → ∃ u : State, exec (.wrRBorder v t) s = .next u ∧
      (∀ b : RegAddr, u.reg b = if b = 0x2C then nv else s.reg b) ∧
      u = { s with
        regs := u.regs
        regDirty := s.regDirty || (nv != s.reg 0x2C)
        out := s.out ++ (if nv = s.reg 0x2C then [] else [.borderColor (nv.extractLsb' 0 4)]) }) ∧
    (s.honoured .reg t = false → exec (.wrRBorder v t) s = .next s)

/-- 40_register_access R109: an honoured write of any other register stores the masked word, marks a change, and does nothing
else; a dropped one changes nothing. -/
def Obligations.RegisterWriteMasked : Prop :=
  ∀ (s : State) (a : RegAddr) (v : Word) (t : Nat), a ≠ 0x20 → a ≠ 0x21 → a ≠ 0x2C →
    let nv := (v &&& s.andMask a) ||| s.orMask a
    (s.honoured .reg t = true → ∃ u : State, exec (.wrRReg a v t) s = .next u ∧
      (∀ b : RegAddr, u.reg b = if b = a then nv else s.reg b) ∧
      u = { s with regs := u.regs, regDirty := s.regDirty || (nv != s.reg a) }) ∧
    (s.honoured .reg t = false → exec (.wrRReg a v t) s = .next s)

/-- 40_register_access R113 and R117 (parameter `REGWIN_HIGH_WRITE`, decision D8): under DROP a write or poke at 0x40 and up
changes nothing; under the other value an honoured write, and a poke, act as the poke of register `a & 0x3F`. -/
def Obligations.HighWritesFollowParameter : Prop :=
  ∀ (s : State) (a v : Word) (t : Nat), 0x40 ≤ a.toNat →
    (s.cfg.highWrite = .drop → exec (.wrRHigh a v t) s = .next s ∧ exec (.pokeRHigh a v) s = .next s) ∧
    (s.cfg.highWrite = .lowRegister → ∃ u : State, exec (.pokeR (BitVec.ofNat 6 (a.toNat % 0x40)) v) s = .next u ∧
      exec (.pokeRHigh a v) s = .next u ∧ exec (.wrRHigh a v t) s = .next (if s.honoured .reg t then u else s))

/-- 40_register_access R114 (the 12-bit index is decision D9): a peek returns the register value, the shape byte or all-ones by
the class of its address, whatever the gate, and changes nothing. -/
def Obligations.PeekRegisterWindow : Prop :=
  ∀ (s : State) (a : Word),
    let i := a.toNat % 0x1000
    exec (.peekR a) s = .next { s with
      out := s.out ++ [.value (
        if a.toNat < 0x40 then (s.reg (a.setWidth 6) &&& s.andMask (a.setWidth 6)) ||| s.orMask (a.setWidth 6)
        else if a.toNat < 0x4000 then s.cfg.shapeReadHigh ++ s.mem.read (if i < 0x800 then i else 0x800 + i % 0x200)
        else 0xFFFF)] }

/-- 40_register_access R116 (that a poke keeps the write's side effects is decision D10): a poke stores the masked word whatever
the gate, with the side effects of the write to its address. -/
def Obligations.PokeRegister : Prop :=
  ∀ (s : State) (a : RegAddr) (v : Word),
    let nv := (v &&& s.andMask a) ||| s.orMask a
    ∃ u : State, exec (.pokeR a v) s = .next u ∧
      (∀ b : RegAddr, u.reg b = if b = a then nv else s.reg b) ∧
      u = { s with
        regs := u.regs
        regDirty := s.regDirty || (nv != s.reg a)
        pendingEnable := s.pendingEnable || (a == 0x20)
        mode := if a = 0x21 then .fgbg else s.mode
        tileDirty := s.tileDirty || (a == 0x21 && (s.mode != .fgbg))
        out := s.out ++ (if a = 0x2C ∧ nv ≠ s.reg a then [.borderColor (nv.extractLsb' 0 4)] else []) }

/-- 40_register_access R115 (ungated by decision D35): `EV.COLL` ORs its bits into the sprite's collision register through the
mask, changes no other register, and clears no bit of a masked register. -/
def Obligations.CollisionEventOnlySetsBits : Prop :=
  ∀ (s : State) (i : BitVec 3) (bits : Word),
    let r := s.cfg.mobc + i.setWidth 6
    let nv := ((s.reg r ||| bits) &&& s.andMask r) ||| s.orMask r
    ∃ u : State, exec (.evColl i bits) s = .next u ∧
      (∀ b : RegAddr, u.reg b = if b = r then nv else s.reg b) ∧
      u = { s with regs := u.regs, regDirty := s.regDirty || (nv != s.reg r) } ∧
      (s.masked r (s.reg r) = s.reg r → ∀ n, (s.reg r).getLsbD n = true → (u.reg r).getLsbD n = true)

/-- 40_register_access R118, as 95_test_vectors W1 uses it: after an honoured write of r come any number of out-of-window writes,
each dropped by the gate it meets, and of `EV.DEADLINE` and `EV.ISO` events between them; all of them complete and leave every
register, and a read of r honoured by the gate it then meets returns `(v & and_mask) | or_mask`. For r = 0x21 that read also
selects Color-Stack mode; for the others it leaves the mode. -/
def Obligations.RegisterPropertyAcrossDroppedWrites : Prop :=
  ∀ (s : State) (r : RegAddr) (v : Word) (t0 t1 : Nat) (between : List Instr), s.honoured .reg t0 = true →
    ∃ w : State, exec (decodeRegWrite (r.setWidth 16) v t0) s = .next w ∧
      (w.onlyDroppedWrites between = true →
        ∃ m : State, runOps between w = .next m ∧ m.regs = w.regs ∧
          (m.honoured .reg t1 = true →
            ∃ u : State, exec (decodeRegRead (r.setWidth 16) t1) m = .next u ∧
              u.out = m.out ++ [.value ((v &&& s.andMask r) ||| s.orMask r)] ∧
              u.mode = if r = 0x21 then .cs else m.mode))

/-- 40_register_access R109 (corner case) and 10_state R23: a register other than 0x20 that accepts no bits keeps its word in
every step, whatever the operation, and reads as all-ones on the implemented width; a write of it changes nothing, honoured or
not. -/
def Obligations.UnimplementedRegistersFixed : Prop :=
  ∀ (s : State) (a : RegAddr), s.cfg.wf → s.RegsMasked → a ∈ s.cfg.unimplemented → a ≠ 0x20 →
    s.regValue a = s.cfg.allOnes ∧
    (∀ t : State, step s = .next t → t.reg a = s.reg a ∧ t.regValue a = s.cfg.allOnes) ∧
    ∀ (v : Word) (n : Nat), exec (.wrRReg a v n) s = .next s

/-- 10_state R29: the mode changes only by reading 0x21 (to Color-Stack) or writing it (to Foreground/Background), a poke, reset
and a high write that reaches register 0x21 being such writes (decisions D8, D10, D31). -/
def Obligations.ModeChangesOnlyAtModeRegister : Prop :=
  ∀ (i : Instr) (s t : State), exec i s = .next t → t.mode ≠ s.mode →
    (t.mode = .cs ∧ ∃ n, i = .rdRMode n ∧ s.honoured .reg n = true) ∨
    (t.mode = .fgbg ∧ (i = .evReset ∨ (∃ v, i = .pokeR 0x21 v) ∨ (∃ v n, i = .wrRMode v n ∧ s.honoured .reg n = true) ∨
      (s.cfg.highWrite = .lowRegister ∧ ∃ a v, a.setWidth 6 = 0x21#6 ∧
        (i = .pokeRHigh a v ∨ ∃ n, i = .wrRHigh a v n ∧ s.honoured .reg n = true))))

/-- 10_state R31, 70_reset_and_hazards R382 (that the latch clears the pending enable is decision D15): the live enable changes
only at `EV.LATCH`, and only there is a pending enable cleared. -/
def Obligations.EnableChangesOnlyAtLatch : Prop :=
  ∀ (i : Instr) (s t : State), exec i s = .next t →
    t.liveEnable ≠ s.liveEnable ∨ (s.pendingEnable = true ∧ t.pendingEnable = false) → i = .evLatch

/-! ## Shape memory -/

/-- 41_shape_memory R141 and R143 (12-bit normalisation and the high byte: decision D11): the ROM byte below 0x800, the RAM byte
`a & 0x1FF` from there; un-honoured reads return SHAPE_GARBAGE; reads change nothing; addresses with equal `addr & 0x9FF` and bit
11 set read alike. -/
def Obligations.ShapeReads : Prop :=
  (∀ (s : State) (a : Word) (t : Nat),
    let i := a.toNat % 0x1000
    let w := s.cfg.shapeReadHigh ++ s.mem.read (if i < 0x800 then i else 0x800 + i % 0x200)
    (s.honoured .mem t = true → exec (.rdS a t) s = .next { s with out := s.out ++ [.value w] }) ∧
    (s.honoured .mem t = false → exec (.rdS a t) s = .next { s with out := s.out ++ [.value ((s.cfg.shapeGarbage.lookup a).getD 0xFFFF)] }) ∧
    exec (.peekS a) s = .next { s with out := s.out ++ [.value w] }) ∧
  (∀ (s : State) (j : ShapeIndex),
    s.shapeValue j = s.mem.read (if j.toNat < 0x800 then j.toNat else 0x800 + j.toNat % 0x200)) ∧
  ∀ (s : State) (a b : Word), a.getLsbD 11 = true → b.getLsbD 11 = true → a &&& 0x9FF = b &&& 0x9FF →
    exec (.peekS a) s = exec (.peekS b) s

/-- 41_shape_memory R142 and R144 (the stored byte and the drop of a poke into ROM: decision D12): an honoured write, and a poke,
of an address with `a & 0xFFF` at 0x800 or more store the low data byte in the RAM cell `0x800 + (a & 0x1FF)` and in no other cell,
and mark a change; at lower addresses, and un-honoured, they change nothing. -/
def Obligations.ShapeWrites : Prop :=
  ∀ (s : State) (a v : Word) (t : Nat), s.MemCanonical →
    let i := a.toNat % 0x1000
    (0x800 ≤ i → ∃ u : State, exec (.pokeS a v) s = .next u ∧ exec (.wrS a v t) s = .next (if s.honoured .mem t then u else s) ∧
      (∀ n, u.mem.read n = if n = 0x800 + a.toNat % 0x200 then v.setWidth 8 else s.mem.read n) ∧
      u = { s with
        mem := u.mem
        shapeDirty := s.shapeDirty || (s.mem.read (0x800 + a.toNat % 0x200) != v.setWidth 8) }) ∧
    (i < 0x800 → exec (.pokeS a v) s = .next s ∧ exec (.wrS a v t) s = .next s)

/-- 41_shape_memory R145: the read-only half is not changed by any operation, reset included. -/
def Obligations.RomNeverChanges : Prop :=
  ∀ (s t : State), step s = .next t → ∀ n < 0x800, t.mem.read n = s.mem.read n

/-! ## Tile tables and capture -/

/-- 42_tile_capture R160 and R161 (ungated, 16 bits, out-of-range indices: decision D13): a staging write stores its word in
entry k and nowhere else, never in the visible table; an index of 240 or more is dropped; a peek returns the entry, or all-ones
from 240 up. -/
def Obligations.StagingAccess : Prop :=
  ∀ (s : State) (k v : Word) (t : Nat),
    (k.toNat < 240 → ∃ u : State, exec (.wrT k v t) s = .next u ∧
      (∀ j < 240, entry u.staging j = if j = k.toNat then v else entry s.staging j) ∧ u = { s with staging := u.staging }) ∧
    (240 ≤ k.toNat → exec (.wrT k v t) s = .next s) ∧
    exec (.peekT k) s = .next { s with
      out := s.out ++ [.value (if k.toNat < 240 then entry s.staging k.toNat else 0xFFFF)] }

/-- 42_tile_capture R170 (clearing the pending enable is decision D15): the latch loads the live enable from the pending one,
clears the latter, and marks a change of the former. -/
def Obligations.LatchLoadsEnable : Prop :=
  ∀ s : State, exec .evLatch s = .next { s with
    liveEnable := s.pendingEnable
    pendingEnable := false
    tileDirty := s.tileDirty || (s.pendingEnable != s.liveEnable) }

/-- 42_tile_capture R171 (the cursor is reset whether or not video is enabled: decision D14). -/
def Obligations.CaptureStartResetsCursor : Prop :=
  ∀ s : State, exec .evCapstart s = .next { s with
    cursor := 0
    firstAfterStart := true
    out := s.out ++ (if s.liveEnable then [.busRequest .short] else []) }

/-- 42_tile_capture R172 (row p - 3 and the free ACK are decision D14): with p in 3..14 and no overrun, the capture copies 20
staging entries from the cursor, advanced by 20 when acknowledged and not the first row, into visible row p - 3 and nowhere
else. -/
def Obligations.CaptureRowCopies : Prop :=
  ∀ (s : State) (p : BitVec 4) (ack : Bool), 3 ≤ p.toNat → p.toNat ≤ 14 →
    (s.firstAfterStart = false → ack = true → s.cursor + 20 ≤ 220) →
    let c := if s.firstAfterStart = false ∧ ack = true then s.cursor + 20 else s.cursor
    ∃ u : State, exec (.evCaprow p ack) s = .next u ∧
      (∀ k < 240, entry u.visible k = if k / 20 = p.toNat - 3 then entry s.staging (c + k % 20) else entry s.visible k) ∧
      u = { s with
        cursor := c
        firstAfterStart := false
        visible := u.visible
        out := s.out ++ (if s.liveEnable then [.busRequest (if p.toNat = 14 then .shortened else .full)] else []) }

/-- 42_tile_capture R172, 60_exceptions R340 and R343 (where the fault is raised is decision D38): a phase outside 3..14 is
BAD_PHASE whatever the cursor; an advance past 220 is CURSOR_OVERRUN. -/
def Obligations.CaptureRowFaults : Prop :=
  ∀ (s : State) (p : BitVec 4) (ack : Bool),
    (p.toNat < 3 ∨ 14 < p.toNat → exec (.evCaprow p ack) s = .fault (.badPhase p)) ∧
    (3 ≤ p.toNat → p.toNat ≤ 14 → s.firstAfterStart = false → ack = true → 220 < s.cursor + 20 →
      exec (.evCaprow p ack) s = .fault .cursorOverrun)

/-- 60_exceptions R341: no operation but `EV.CAPROW` faults, and with no other info than the two of R340 (that a bad phase and a
cursor overrun are the fault is decision D38); no operation is refused by its meaning. In a run that keeps the order of
30_encoding R84 from the start of a frame no fault is raised at all (42_tile_capture R172, the spec's derivation). -/
def Obligations.OnlyCaptureFaults : Prop :=
  (∀ (i : Instr) (s : State) (f : Fault), exec i s = .fault f →
    ∃ p ack, i = .evCaprow p ack ∧ (f = .badPhase p ∨ f = .cursorOverrun)) ∧
  (∀ (i : Instr) (s : State) (r : Refusal), exec i s ≠ .refused r) ∧
  ∀ (is : List Instr) (s : State) (f : Fault), FrameOrdered (.capturing 14) s is = true → runOps is s ≠ .fault f

/-- 42_tile_capture R175: no operation but `EV.CAPROW` writes the visible table, and a render does not depend on the staging
buffer. -/
def Obligations.BufferIsolation : Prop :=
  (∀ (i : Instr) (s t : State), exec i s = .next t → t.visible ≠ s.visible → ∃ p ack, i = .evCaprow p ack) ∧
  ∀ (s : State) (drop : Bool) (other : Vector Word 240), ∃ t : State,
    exec (.evRender drop) s = .next t ∧ exec (.evRender drop) { s with staging := other } = .next { t with staging := other }

/-- 42_tile_capture R172, 70_reset_and_hazards R384: after a whole frame capture, visible row r shows the staging row whose number
is how many of the captures of rows 1 to r were acknowledged; with every row acknowledged the visible table is the staging
buffer. -/
def Obligations.FrameCaptureFollowsAcks : Prop :=
  ∀ (s : State) (acks : Nat → Bool), ∃ u : State, runOps (frameCapture acks) s = .next u ∧
    (∀ r < 12, ∀ c < 20,
      entry u.visible (20 * r + c) = entry s.staging (20 * (List.range r).countP (fun j => acks (j + 1)) + c)) ∧
    ((∀ j, acks j = true) → u.visible = s.staging ∧ u.cursor = 220)

/-! ## Rendering -/

/-- 46_edge_merge_unpack R320 and R321 (the OR of the three flags is decision D36): with video off nothing is rendered; the dirt
and the pending enable are reported and the dirty flags cleared. -/
def Obligations.RenderDisabledReportsOnly : Prop :=
  ∀ (s : State) (drop : Bool), s.liveEnable = false → exec (.evRender drop) s = .next { s with
    regDirty := false
    shapeDirty := false
    tileDirty := false
    out := s.out ++ [.frameDirty (s.regDirty || s.shapeDirty || s.tileDirty), .videoEnabled s.pendingEnable] }

/-- 46_edge_merge_unpack R320 and R321 (decisions D30 and D36), 45_sprite_renderer R260: with video on a render completes; it
changes only the render state and the dirty flags, hands the frame to the sink unless dropped, always hands over to the collision
detector the bitmap, bounding box, skip, INTR, step, XPOS and YPOS of the eight sprites and the edge-fixed foreground plane, and
reports. -/
def Obligations.RenderEnabledCompletes : Prop :=
  ∀ (s : State) (drop : Bool), s.liveEnable = true → ∃ u : State, exec (.evRender drop) s = .next u ∧
    let handed : Nat → CollSprite := fun i =>
      let x := s.reg (s.cfg.mobx + BitVec.ofNat 6 i)
      let y := s.reg (s.cfg.moby + BitVec.ofNat 6 i)
      let xpos := (x.extractLsb' s.cfg.xposLo 8).toNat
      let ypos := (y.extractLsb' s.cfg.yposLo 7).toNat
      let intr := x.getLsbD s.cfg.intrBit
      { bitmap := entry u.bitmaps i
        bbox := entry u.bboxes i
        skip := decide (xpos = 0 ∨ 168 ≤ xpos ∨ 104 ≤ ypos ∨ (x.getLsbD s.cfg.visBit = false ∧ intr = false))
        intr := intr
        step := 2 ^ (y.extractLsb' s.cfg.ysizeLo 2).toNat
        xpos := xpos
        ypos := ypos }
    u = { s with
      tc := u.tc
      tf := u.tf
      lastBg := u.lastBg
      csIndex := u.csIndex
      bitmaps := u.bitmaps
      imageColour := u.imageColour
      bboxes := u.bboxes
      sv := u.sv
      sp := u.sp
      sc := u.sc
      df := u.df
      surface := u.surface
      draws := u.draws
      regDirty := false
      shapeDirty := false
      tileDirty := false
      out := s.out ++ (if drop then [] else [.frame u.surface u.bboxes]) ++
        [.collRun (tab 8 handed) u.tf, .frameDirty (s.regDirty || s.shapeDirty || s.tileDirty),
          .videoEnabled s.pendingEnable] }

/-- 46_edge_merge_unpack R320 (decision D30): a dropped frame leaves the display field, the surface and the sprite colour plane,
and its visibility and priority planes are clear. -/
def Obligations.DroppedFrameKeepsPicture : Prop :=
  ∀ (s u : State), s.liveEnable = true → exec (.evRender true) s = .next u →
    u.df = s.df ∧ u.surface = s.surface ∧ u.sc = s.sc ∧ u.draws = s.draws ∧
    ∀ x < 168, ∀ y < 208, u.sv.get x y = false ∧ u.sp.get x y = false

/-- 44_tile_renderer R211 to R214, R217, R218 (start index: decision D17; geometry: D21; stack advance of colored-squares cards:
parameter, D18): a Color-Stack normal card. Its background is the stack entry numbered by how many cards up to it advance the
stack, modulo 4. -/
def Obligations.StackCardPixels : Prop :=
  ∀ (s u : State) (drop : Bool) (k r p : Nat), s.liveEnable = true → s.mode = .cs → exec (.evRender drop) s = .next u →
    k < 240 → r < 8 → p < 8 →
    let cards : Nat → Word := fun j => entry s.visible j &&& 0x3FFF
    let card := cards k
    card.extractLsb' 11 2 ≠ 0b10#2 →
    let steps := (List.range (k + 1)).countP fun j =>
      (cards j).getLsbD 13 && (s.cfg.csqAdvances || (cards j).extractLsb' 11 2 != 0b10#2)
    let bg := (s.reg (s.cfg.cs + BitVec.ofNat 6 (steps % 4))).extractLsb' s.cfg.csLo 4
    let fg : Colour := (((card >>> 9) &&& 8) ||| (card &&& 7)).setWidth 4
    let idx : ShapeIndex := (if card.getLsbD 11 then card &&& 0x0FF8 &&& ~~~0x0600 else card &&& 0x0FF8).setWidth 12
    let b := s.shapeValue (idx + BitVec.ofNat 12 r)
    let h := ((s.reg s.cfg.hdly).extractLsb' s.cfg.hdlyLo 3).toNat
    let v := ((s.reg s.cfg.vdly).extractLsb' s.cfg.vdlyLo 3).toNat
    let x := 8 * (k % 20 + 1) + p
    let y := 8 * (k / 20 + 1) + r
    u.tc.get x y = (if b.getLsbD (7 - p) then fg else bg) ∧
    u.tf.get x y = (b.getLsbD (7 - p) && !decide (167 < x + h ∨ 103 < y + v)) ∧
    (k % 20 = 19 → entry u.lastBg (k / 20) = bg)

/-- 44_tile_renderer R215 (fields and stack advance are parameters, decision D18; start index: D17; geometry: D21): a
colored-squares card, `card[12:11] = 0b10`. -/
def Obligations.SquaresCardPixels : Prop :=
  ∀ (s u : State) (drop : Bool) (k r p : Nat), s.liveEnable = true → s.mode = .cs → exec (.evRender drop) s = .next u →
    k < 240 → r < 8 → p < 8 →
    let cards : Nat → Word := fun j => entry s.visible j &&& 0x3FFF
    let card := cards k
    card.extractLsb' 11 2 = 0b10#2 →
    let at3 := entry s.cfg.csqFields (2 * (r / 4) + p / 4)
    let c : BitVec 3 :=
      BitVec.ofBool (card.getLsbD at3.1) ++ BitVec.ofBool (card.getLsbD at3.2.1) ++ BitVec.ofBool (card.getLsbD at3.2.2)
    let steps := (List.range (k + 1)).countP fun j =>
      (cards j).getLsbD 13 && (s.cfg.csqAdvances || (cards j).extractLsb' 11 2 != 0b10#2)
    let bg := (s.reg (s.cfg.cs + BitVec.ofNat 6 (steps % 4))).extractLsb' s.cfg.csLo 4
    let h := ((s.reg s.cfg.hdly).extractLsb' s.cfg.hdlyLo 3).toNat
    let v := ((s.reg s.cfg.vdly).extractLsb' s.cfg.vdlyLo 3).toNat
    let x := 8 * (k % 20 + 1) + p
    let y := 8 * (k / 20 + 1) + r
    u.tc.get x y = (if c = 7 then bg else c.setWidth 4) ∧
    u.tf.get x y = (decide (c ≠ 7) && !decide (167 < x + h ∨ 103 < y + v)) ∧
    (k % 20 = 19 → entry u.lastBg (k / 20) = bg)

/-- 44_tile_renderer R216, R217 (last background: decision D20; geometry: D21): a Foreground/Background card. -/
def Obligations.ForeBackCardPixels : Prop :=
  ∀ (s u : State) (drop : Bool) (k r p : Nat), s.liveEnable = true → s.mode = .fgbg → exec (.evRender drop) s = .next u →
    k < 240 → r < 8 → p < 8 →
    let card : Word := entry s.visible k &&& 0x3FFF
    let b := s.shapeValue ((card &&& 0x09F8).setWidth 12 + BitVec.ofNat 12 r)
    let bg : Colour := (((card >>> 9) &&& 0xB) ||| ((card >>> 11) &&& 4)).setWidth 4
    let h := ((s.reg s.cfg.hdly).extractLsb' s.cfg.hdlyLo 3).toNat
    let v := ((s.reg s.cfg.vdly).extractLsb' s.cfg.vdlyLo 3).toNat
    let x := 8 * (k % 20 + 1) + p
    let y := 8 * (k / 20 + 1) + r
    u.tc.get x y = (if b.getLsbD (7 - p) then (card &&& 7).setWidth 4 else bg) ∧
    u.tf.get x y = (b.getLsbD (7 - p) && !decide (167 < x + h ∨ 103 < y + v)) ∧
    (k % 20 = 19 → entry u.lastBg (k / 20) = bg)

/-- 46_edge_merge_unpack R291, R292, R301 (decisions D26 and D27): after a render the foreground and visibility planes are clear
where the delay pushes them off the picture; in a shown frame the seed cells have no foreground, and each 8 × 8 seed cell has one
colour, whatever the free value is. -/
def Obligations.EdgeAndSeedPixelsClear : Prop :=
  ∀ (s u : State) (drop : Bool), s.liveEnable = true → exec (.evRender drop) s = .next u →
    let h := ((s.reg s.cfg.hdly).extractLsb' s.cfg.hdlyLo 3).toNat
    let v := ((s.reg s.cfg.vdly).extractLsb' s.cfg.vdlyLo 3).toNat
    (∀ x < 168, ∀ y < 104, 167 < x + h ∨ 103 < y + v → u.tf.get x y = false) ∧
    (∀ x < 168, ∀ y < 208, 167 < x + h ∨ 207 < y + 2 * v → u.sv.get x y = false) ∧
    (drop = false → ∀ x < 168, ∀ y < 104, x < 8 ∨ y < 8 →
      u.tf.get x y = false ∧ u.tc.get x y = u.tc.get (8 * (x / 8)) (8 * (y / 8)))

/-- 45_sprite_renderer R253 to R255 (row placement and mirror range: decision D23; units: D37; for every sprite: D25; base:
parameter): the bitmap rows, the colour image (the sprite's colour where the bitmap is set, transparent elsewhere) and the bounding
box of all eight sprites, after a shown or a dropped frame. -/
def Obligations.SpriteBitmapsAndBoxes : Prop :=
  ∀ (s u : State) (drop : Bool) (i : Nat), s.liveEnable = true → exec (.evRender drop) s = .next u → i < 8 →
    let p := s.sprite i
    let base := entry (if p.yres then s.cfg.yresBase16 else s.cfg.yresBase8) (p.idx >>> 3).toNat
    (∀ q < 16, u.spriteRow i q =
      if q < p.rows then
        remap (s.shapeValue (base + BitVec.ofNat 12 (if p.yflip then p.rows - 1 - q else q))) p.xsize p.xflip
      else 0) ∧
    (∀ q < 16, ∀ c < 16, u.imagePixel i q c = if (u.spriteRow i q).getLsbD (15 - c) then some p.colour else none) ∧
    entry u.imageColour i = p.colour ∧
    entry u.bboxes i = ⟨p.xpos.toNat, 2 * p.ypos.toNat, if p.xsize then 16 else 8, p.rows * p.step⟩

/-- 45_sprite_renderer R258 (geometry: decision D21): the pixels a sprite covers are those the loop over bitmap row q, repetition t
and column c reaches. -/
def Obligations.CoversIffLoopReaches : Prop :=
  ∀ (u : State) (p : Sprite) (i x y : Nat),
    u.covers p i x y = true ↔ ∃ q t c, q < p.rows ∧ t < p.step ∧ c < 16 ∧ y = 2 * p.ypos.toNat + q * p.step + t ∧
      x = p.xpos.toNat + c ∧ (u.spriteRow i q).getLsbD (15 - c) = true

/-- 45_sprite_renderer R256 to R259 (skip limits: decision D22; geometry: D21; priority merge: parameter, D24): the shared planes
of a shown frame. A sprite takes part when it is visible and inside the limits. Visibility is any covering sprite's, the colour is
the lowest covering sprite's and stays as it was elsewhere, the priority is as `PRIO_MERGE` says. -/
def Obligations.CompositedPlanes : Prop :=
  ∀ (s u : State) (x y : Nat), s.liveEnable = true → exec (.evRender false) s = .next u → x < 168 → y < 208 →
    let covering := fun i =>
      let p := s.sprite i
      p.vis && decide (0 < p.xpos.toNat ∧ p.xpos.toNat < 168 ∧ p.ypos.toNat < 104) && u.covers p i x y
    let h := ((s.reg s.cfg.hdly).extractLsb' s.cfg.hdlyLo 3).toNat
    let v := ((s.reg s.cfg.vdly).extractLsb' s.cfg.vdlyLo 3).toNat
    u.sv.get x y = ((List.range 8).any covering && !decide (167 < x + h ∨ 207 < y + 2 * v)) ∧
    (match (List.range 8).find? covering with
      | none => u.sc.get x y = s.sc.get x y ∧ u.sp.get x y = false
      | some i =>
        u.sc.get x y = (s.sprite i).colour ∧
        u.sp.get x y = match s.cfg.prioMerge with
          | .or => (List.range 8).any fun j => covering j && (s.sprite j).prio
          | .winner => (s.sprite i).prio)

/-- 46_edge_merge_unpack R300, R302 to R304 (geometry: decision D21; fill: D28; border sizes: parameter): every display-field pixel
of a shown frame is border, or the merged pixel h columns to the left and 2v scanlines up, or 0. -/
def Obligations.DisplayFieldPixels : Prop :=
  ∀ (s u : State) (dx dy : Nat), s.liveEnable = true → exec (.evRender false) s = .next u → dx < 176 → dy < 224 →
    let h := ((s.reg s.cfg.hdly).extractLsb' s.cfg.hdlyLo 3).toNat
    let v := ((s.reg s.cfg.vdly).extractLsb' s.cfg.vdlyLo 3).toNat
    let x := dx - h
    let y := dy - 2 * v
    let tb := if (s.reg s.cfg.edge).getLsbD s.cfg.extRowBit then s.cfg.bandExtended else s.cfg.bandPlain
    let lb := if (s.reg s.cfg.edge).getLsbD s.cfg.extColBit then s.cfg.columnExtended else s.cfg.columnPlain
    u.df.get dx dy =
      if dy < tb ∨ 224 - tb ≤ dy ∨ dx < lb ∨ 176 - lb ≤ dx then (s.reg 0x2C).extractLsb' 0 4
      else if h ≤ dx ∧ x ≤ 167 ∧ 2 * v ≤ dy ∧ y ≤ 207 then
        if u.sv.get x y = true ∧ ¬ (u.sp.get x y = true ∧ u.tf.get x (y / 2) = true) then u.sc.get x y else u.tc.get x (y / 2)
      else 0

/-- 46_edge_merge_unpack R302, R303 (corner cases): with borders of at least 8 columns and 16 scanlines the zero fill of the delays
never shows: outside the border every pixel is a merged pixel. -/
def Obligations.ZeroFillNeverShows : Prop :=
  ∀ (s u : State) (dx dy : Nat), s.liveEnable = true → exec (.evRender false) s = .next u → dx < 176 → dy < 224 →
    8 ≤ s.columnSize → 16 ≤ s.bandSize → s.inBorder dx dy = false →
    s.hDelay ≤ dx ∧ dx - s.hDelay < 168 ∧ 2 * s.vDelay ≤ dy ∧ dy - 2 * s.vDelay < 208 ∧
      u.df.get dx dy = u.merged (dx - s.hDelay) (dy - 2 * s.vDelay)

/-- 46_edge_merge_unpack R305 (`SURFACE_MAP` is a parameter, decision D29): every surface byte of a shown frame is the colour of the
display-field pixel that the map names, the high four bits 0. -/
def Obligations.SurfacePixels : Prop :=
  ∀ (s u : State) (x y : Nat), s.liveEnable = true → exec (.evRender false) s = .next u → x < 160 → y < 200 →
    u.surface.get x y = (u.df.get (s.cfg.surfaceMap.get x y).1 (s.cfg.surfaceMap.get x y).2).setWidth 8

/-- 43_expansion_luts R190 to R196 (bit 7 leftmost: decision D19; placement of 8-wide rows: D23): every table, bit by bit or pixel
by pixel. -/
def Obligations.ExpansionTables : Prop :=
  (∀ (b : Byte) (k : Nat), k < 8 → pixel (expand8 b) k = if b.getLsbD (7 - k) then 0xF else 0) ∧
  (∀ (b : Byte) (i : Nat), i < 8 → (rev8 b).getLsbD i = b.getLsbD (7 - i) ∧
    (dbl8 b).getLsbD (2 * i) = b.getLsbD i ∧ (dbl8 b).getLsbD (2 * i + 1) = b.getLsbD i) ∧
  (∀ (b : Byte) (c : Nat), c < 16 →
    (remap b false false).getLsbD (15 - c) = (decide (c < 8) && b.getLsbD (7 - c)) ∧
    (remap b false true).getLsbD (15 - c) = (decide (c < 8) && b.getLsbD c) ∧
    (remap b true false).getLsbD (15 - c) = b.getLsbD (7 - c / 2) ∧
    (remap b true true).getLsbD (15 - c) = b.getLsbD (c / 2)) ∧
  (∀ (r : Word) (k : Nat), k < 8 →
    pixel (expand16 r).1 k = (if r.getLsbD (15 - k) then 0xF else 0) ∧
    pixel (expand16 r).2 k = if r.getLsbD (7 - k) then 0xF else 0) ∧
  (∀ (m : Packed) (f g : Colour) (k : Nat), k < 8 →
    pixel (fillWord f) k = f ∧ pixel (colourWord m f g) k = (pixel m k &&& f) ||| (~~~(pixel m k) &&& g)) ∧
  (∀ w : Packed, unpackWord w = (List.range 8).map fun k => (pixel w k).setWidth 8) ∧
  ∀ c : Colour, unpackWord (fillWord c) = List.replicate 8 (c.setWidth 8)

/-- 45_sprite_renderer R250 to R252 (positions: parameter FIELDS, decision D5), R257 and R258 (limits: decision D22): sprite i
decoded, the sizes, the skip test and the compositing test written out; 10_state R28: the delays and the border sizes, whose
values are parameters. -/
def Obligations.SpriteDecodeAndSkip : Prop :=
  (∀ (s : State) (i : Nat),
    let x := s.reg (s.cfg.mobx + BitVec.ofNat 6 i)
    let y := s.reg (s.cfg.moby + BitVec.ofNat 6 i)
    let a := s.reg (s.cfg.moba + BitVec.ofNat 6 i)
    s.sprite i = {
      xpos := x.extractLsb' s.cfg.xposLo 8
      intr := x.getLsbD s.cfg.intrBit
      vis := x.getLsbD s.cfg.visBit
      xsize := x.getLsbD s.cfg.xsizeBit
      ypos := y.extractLsb' s.cfg.yposLo 7
      yres := y.getLsbD s.cfg.yresBit
      ysize := y.extractLsb' s.cfg.ysizeLo 2
      xflip := y.getLsbD s.cfg.xflipBit
      yflip := y.getLsbD s.cfg.yflipBit
      colour := (((a >>> 9) &&& 8) ||| (a &&& 7)).setWidth 4
      prio := a.getLsbD s.cfg.prioBit
      idx := (if a.getLsbD 11 = true ∨ s.mode = .fgbg then a &&& 0x0FF8 &&& ~~~0x0600 else a &&& 0x0FF8).setWidth 12 }) ∧
  (∀ p : Sprite,
    p.width = (if p.xsize then 16 else 8) ∧ p.rows = (if p.yres then 16 else 8) ∧ p.step = 2 ^ p.ysize.toNat ∧
    p.height = p.rows * p.step ∧
    (p.skip = true ↔ p.xpos.toNat = 0 ∨ 168 ≤ p.xpos.toNat ∨ 104 ≤ p.ypos.toNat ∨ (p.vis = false ∧ p.intr = false)) ∧
    (p.composited = true ↔ 0 < p.xpos.toNat ∧ p.xpos.toNat < 168 ∧ p.ypos.toNat < 104 ∧ p.vis = true)) ∧
  ∀ s : State,
    s.hDelay = ((s.reg s.cfg.hdly).extractLsb' s.cfg.hdlyLo 3).toNat ∧
    s.vDelay = ((s.reg s.cfg.vdly).extractLsb' s.cfg.vdlyLo 3).toNat ∧
    s.bandSize = (if (s.reg s.cfg.edge).getLsbD s.cfg.extRowBit then s.cfg.bandExtended else s.cfg.bandPlain) ∧
    s.columnSize = (if (s.reg s.cfg.edge).getLsbD s.cfg.extColBit then s.cfg.columnExtended else s.cfg.columnPlain)
end

