-- ==== Sys2Proof/Laws/Table.lean ====
section
/-! SUPPORT. Reading tables, planes and built bit vectors. -/

namespace Sys2Proof

@[simp] theorem tab_getElem {α : Type} (n : Nat) (f : Nat → α) (i : Nat) (h : i < n) : (tab n f)[i] = f i := by
  simp [tab]

@[simp] theorem entry_tab {α : Type} [Inhabited α] (n : Nat) (f : Nat → α) (i : Nat) :
    entry (tab n f) i = if i < n then f i else default := by
  simp [entry]

theorem entry_of_lt {α : Type} [Inhabited α] {n : Nat} (v : Vector α n) {i : Nat} (h : i < n) : entry v i = v[i] := by
  simp [entry, h]

theorem entry_of_le {α : Type} [Inhabited α] {n : Nat} (v : Vector α n) {i : Nat} (h : n ≤ i) : entry v i = default := by
  simp [entry, Nat.not_lt.mpr h]

theorem entry_set {α : Type} [Inhabited α] {n : Nat} (v : Vector α n) (k : Nat) (x : α) (h : k < n) (i : Nat) :
    entry (v.set k x h) i = if i = k then x else entry v i := by
  by_cases hi : i < n
  · simp [entry, hi, Vector.getElem_set, eq_comm]
  · have : i ≠ k := by omega
    simp [entry, hi, this]

theorem entry_map {α β : Type} [Inhabited β] {n : Nat} (v : Vector α n) (f : α → β) {i : Nat} (h : i < n) :
    entry (v.map f) i = f v[i] := by
  simp [entry, h]

/-- Two tables with the same entries are equal. -/
theorem table_ext {α : Type} [Inhabited α] {n : Nat} {v w : Vector α n} (h : ∀ i < n, entry v i = entry w i) : v = w := by
  refine Vector.ext fun i hi => ?_
  simpa [entry, hi] using h i hi

@[simp] theorem Plane.get_ofFn {α : Type} [Inhabited α] (w h : Nat) (f : Nat → Nat → α) (x y : Nat) :
    (Plane.ofFn w h f).get x y = if x < w ∧ y < h then f x y else default := by
  by_cases hy : y < h <;> by_cases hx : x < w <;> simp [Plane.get, Plane.ofFn, hx, hy]

@[simp] theorem Plane.get_fill {α : Type} [Inhabited α] (w h : Nat) (v : α) (x y : Nat) :
    (Plane.fill w h v).get x y = if x < w ∧ y < h then v else default := by
  simp [Plane.fill]

/-- Two planes with the same pixels are equal. -/
theorem Plane.ext_get {α : Type} [Inhabited α] {w h : Nat} {p q : Plane α w h}
    (hpq : ∀ x < w, ∀ y < h, p.get x y = q.get x y) : p = q := by
  obtain ⟨p⟩ := p
  obtain ⟨q⟩ := q
  congr 1
  refine Vector.ext fun y hy => table_ext fun x hx => ?_
  simpa [Plane.get, hy] using hpq x hx y hy

@[simp] theorem getLsbD_ofBits (n : Nat) (f : Nat → Bool) (i : Nat) :
    (ofBits n f).getLsbD i = (decide (i < n) && f i) := by
  induction n with
  | zero => simp [ofBits]
  | succ n ih =>
    rw [ofBits, BitVec.getLsbD_cons, ih]
    by_cases h : i = n
    · simp [h]
    · by_cases h2 : i < n
      · simp [h, h2, Nat.lt_succ_of_lt h2]
      · have : ¬ i < n + 1 := by omega
        simp [h, h2, this]

@[simp] theorem getElem_ofBits (n : Nat) (f : Nat → Bool) (i : Nat) (h : i < n) : (ofBits n f)[i] = f i := by
  rw [← BitVec.getLsbD_eq_getElem, getLsbD_ofBits]
  simp [h]

end Sys2Proof
end

