-- ==== Sys2Proof/Laws/Expand.lean ====
section
/-! SUPPORT. The expansion tables pixel by pixel (43_expansion_luts). -/

namespace Sys2Proof.Machine

theorem getLsbD_pixel (w : Packed) (k j : Nat) : (pixel w k).getLsbD j = (decide (j < 4) && w.getLsbD (28 - 4 * k + j)) := by
  simp [pixel]

/-- Every nibble of `FILL(c)` is c (R195). -/
theorem pixel_fillWord (c : Colour) {k : Nat} (hk : k < 8) : pixel (fillWord c) k = c := by
  interval_cases k <;> revert c <;> decide

/-- Pixel k of a packed word built pixel by pixel (00_scope R13). -/
theorem pixel_packPixels (f : Nat → Colour) {k : Nat} (hk : k < 8) : pixel (packPixels f) k = f k := by
  refine BitVec.eq_of_getLsbD_eq fun j hj => ?_
  have h1 : 28 - 4 * k + j < 32 := by omega
  have h2 : 7 - (28 - 4 * k + j) / 4 = k := by omega
  have h3 : (28 - 4 * k + j) % 4 = j := by omega
  simp [pixel, packPixels, hj, h1, h2, h3]

/-- Pixel k of `COLOUR(EXPAND8(b), f, g)`: f where bit 7-k of the byte is set, else g (44_tile_renderer R212). -/
theorem pixel_colourWord (b : Byte) (f g : Colour) {k : Nat} (hk : k < 8) :
    pixel (colourWord (expand8 b) f g) k = if b.getLsbD (7 - k) then f else g := by
  have hf := pixel_fillWord f hk
  have hg := pixel_fillWord g hk
  refine BitVec.eq_of_getLsbD_eq fun j hj => ?_
  have h1 : 28 - 4 * k + j < 32 := by omega
  have h2 : (28 - 4 * k + j) / 4 = 7 - k := by omega
  have hfj : (fillWord f).getLsbD (28 - 4 * k + j) = f.getLsbD j := by rw [← hf, getLsbD_pixel, hf]; simp [hj]
  have hgj : (fillWord g).getLsbD (28 - 4 * k + j) = g.getLsbD j := by rw [← hg, getLsbD_pixel, hg]; simp [hj]
  rw [getLsbD_pixel]
  simp only [colourWord, BitVec.getLsbD_or, BitVec.getLsbD_and, BitVec.getLsbD_not, expand8, getLsbD_ofBits, h1, h2, hj,
    decide_true, Bool.true_and, hfj, hgj]
  cases b.getLsbD (7 - k) <;> simp

/-- A nibble of a byte of a word is a nibble of the word. -/
theorem extractLsb'_byte_nibble (w : Packed) (lo n : Nat) (h : n + 4 ≤ 8) :
    (w.extractLsb' lo 8).extractLsb' n 4 = w.extractLsb' (lo + n) 4 := by
  refine BitVec.eq_of_getLsbD_eq fun j hj => ?_
  have : n + j < 8 := by omega
  simp only [BitVec.getLsbD_extractLsb', hj, this, decide_true, Bool.true_and, Nat.add_assoc]

/-- The k-th byte of an unpacked word is its pixel k (R196). -/
theorem getD_unpackWord (w : Packed) {k : Nat} (hk : k < 8) : (unpackWord w).getD k 0 = (pixel w k).setWidth 8 := by
  interval_cases k <;> simp [unpackWord, unpack2, pixel, extractLsb'_byte_nibble]

end Sys2Proof.Machine
end

