-- ==== Sys2Proof/Laws/Memory.lean ====
section
/-! SUPPORT. Shape memory: reading after writing, and the canonical form. -/

namespace Sys2Proof.Machine

@[simp] theorem Memory.read_nil (a : Nat) : Memory.read [] a = Memory.unlisted := rfl

theorem Memory.read_of_above {m : Memory} (hm : Memory.wf m = true) {a : Nat} (ha : Memory.above a m = true) :
    Memory.read m a = Memory.unlisted := by
  induction m generalizing a with
  | nil => rfl
  | cons c m ih =>
    obtain ⟨b, w⟩ := c
    simp only [Memory.wf, Memory.above, Bool.and_eq_true, decide_eq_true_eq] at hm ha
    have hab : a ≠ b := by omega
    rw [Memory.read, if_neg hab]
    refine ih hm.2 ?_
    cases m with
    | nil => rfl
    | cons d m =>
      obtain ⟨e, u⟩ := d
      simp only [Memory.above, decide_eq_true_eq] at hm ⊢
      omega

theorem Memory.read_write_same {m : Memory} (hm : Memory.wf m = true) (a : Nat) (v : Byte) :
    (m.write a v).read a = v := by
  induction m with
  | nil =>
    rw [Memory.write]
    split <;> simp_all [Memory.read]
  | cons c m ih =>
    obtain ⟨b, w⟩ := c
    simp only [Memory.wf, Bool.and_eq_true] at hm
    rw [Memory.write]
    split
    · next hlt =>
      split
      · next hv =>
        subst hv
        refine Memory.read_of_above (m := (b, w) :: m) ?_ (by simpa [Memory.above] using hlt)
        simp [Memory.wf, hm]
      · simp [Memory.read]
    · split
      · next hab =>
        split
        · next hv => rw [hv, hab]; exact Memory.read_of_above hm.2 hm.1.1.1
        · simp [Memory.read]
      · next hab => rw [Memory.read, if_neg hab, ih hm.2]

theorem Memory.read_write_other (m : Memory) {a e : Nat} (h : e ≠ a) (v : Byte) : (m.write a v).read e = m.read e := by
  induction m with
  | nil =>
    rw [Memory.write]
    split <;> simp [Memory.read, h]
  | cons c m ih =>
    obtain ⟨b, w⟩ := c
    rw [Memory.write]
    split
    · split
      · rfl
      · simp [Memory.read, h]
    · split
      · next hab =>
        subst hab
        split <;> simp [Memory.read, h]
      · simp only [Memory.read, ih]

theorem Memory.above_write {m : Memory} {a b : Nat} (hab : b < a) (hm : Memory.above b m = true) (v : Byte) :
    Memory.above b (m.write a v) = true ∨ m.write a v = [] ∨ ∃ c n, m = c :: n ∧ m.write a v = n := by
  cases m with
  | nil => rw [Memory.write]; split <;> simp [Memory.above, hab]
  | cons c m =>
    obtain ⟨e, w⟩ := c
    simp only [Memory.above, decide_eq_true_eq] at hm
    rw [Memory.write]
    split
    · split <;> simp [Memory.above, hab, hm]
    · split
      · split
        · exact .inr (.inr ⟨_, _, rfl, rfl⟩)
        · simp [Memory.above, hab]
      · simp [Memory.above, hm]

theorem Memory.above_of_wf_cons {b : Nat} {w : Byte} {m : Memory} (h : Memory.wf ((b, w) :: m) = true) {e : Nat} (he : e ≤ b) :
    Memory.above e m = true := by
  simp only [Memory.wf, Bool.and_eq_true] at h
  cases m with
  | nil => rfl
  | cons d m =>
    obtain ⟨f, u⟩ := d
    simp only [Memory.above, decide_eq_true_eq] at h ⊢
    omega

/-- Every write keeps the canonical form. -/
theorem Memory.write_wf {m : Memory} (hm : Memory.wf m = true) {a : Nat} (ha : a < 0xA00) (v : Byte) :
    Memory.wf (m.write a v) = true := by
  induction m with
  | nil =>
    rw [Memory.write]
    split
    · rfl
    · simp_all [Memory.wf, Memory.above]
  | cons c m ih =>
    obtain ⟨b, w⟩ := c
    have hcons := hm
    simp only [Memory.wf, Bool.and_eq_true] at hm
    rw [Memory.write]
    split
    · next hlt =>
      split
      · exact hcons
      · next hv => simp_all [Memory.wf, Memory.above]
    · next hlt =>
      split
      · next hab =>
        subst hab
        split
        · exact hm.2
        · next hv => simp_all [Memory.wf]
      · next hab =>
        have hba : b < a := by omega
        have hrest := ih hm.2
        have habove : Memory.above b (Memory.write m a v) = true := by
          rcases Memory.above_write hba hm.1.1.1 v with h | h | ⟨⟨e, u⟩, n, rfl, h⟩
          · exact h
          · rw [h]; rfl
          · rw [h]
            have he : b < e := by simpa [Memory.above] using hm.1.1.1
            exact Memory.above_of_wf_cons hm.2 (by omega)
        simp only [Memory.wf, Bool.and_eq_true]
        exact ⟨⟨⟨habove, hm.1.1.2⟩, hm.1.2⟩, hrest⟩

/-- The cell of a shape index lies in ROM or RAM (20_memory R62). -/
theorem shapeCell_lt (i : ShapeIndex) : shapeCell i < 0xA00 := by
  unfold shapeCell
  split
  · omega
  · have : (i &&& 0x1FF).toNat ≤ 0x1FF := by simpa using Nat.and_le_right (n := i.toNat) (m := 0x1FF)
    omega

/-- An index below 0x800 is its own cell (20_memory R62). -/
theorem shapeCell_rom {i : ShapeIndex} (h : i.toNat < 0x800) : shapeCell i = i.toNat := by simp [shapeCell, h]

/-- An index from 0x800 up reaches RAM (20_memory R62). -/
theorem shapeCell_ram {i : ShapeIndex} (h : 0x800 ≤ i.toNat) : shapeCell i = 0x800 + (i &&& 0x1FF).toNat := by
  simp [shapeCell, Nat.not_lt.mpr h]

end Sys2Proof.Machine
end

