-- ==== Sys2Proof/Laws/State.lean ====
section
/-! SUPPORT. What each update of the state does to each field: one lemma per field per update. -/

namespace Sys2Proof.Machine

variable (s : State)

/-! `emit` -/

@[simp] theorem State.emit_cfg (o : Output) : (s.emit o).cfg = s.cfg := rfl
@[simp] theorem State.emit_regs (o : Output) : (s.emit o).regs = s.regs := rfl
@[simp] theorem State.emit_mode (o : Output) : (s.emit o).mode = s.mode := rfl
@[simp] theorem State.emit_regDirty (o : Output) : (s.emit o).regDirty = s.regDirty := rfl
@[simp] theorem State.emit_shapeDirty (o : Output) : (s.emit o).shapeDirty = s.shapeDirty := rfl
@[simp] theorem State.emit_tileDirty (o : Output) : (s.emit o).tileDirty = s.tileDirty := rfl
@[simp] theorem State.emit_pendingEnable (o : Output) : (s.emit o).pendingEnable = s.pendingEnable := rfl
@[simp] theorem State.emit_liveEnable (o : Output) : (s.emit o).liveEnable = s.liveEnable := rfl
@[simp] theorem State.emit_regDeadline (o : Output) : (s.emit o).regDeadline = s.regDeadline := rfl
@[simp] theorem State.emit_memDeadline (o : Output) : (s.emit o).memDeadline = s.memDeadline := rfl
@[simp] theorem State.emit_isoEnd (o : Output) : (s.emit o).isoEnd = s.isoEnd := rfl
@[simp] theorem State.emit_mem (o : Output) : (s.emit o).mem = s.mem := rfl
@[simp] theorem State.emit_staging (o : Output) : (s.emit o).staging = s.staging := rfl
@[simp] theorem State.emit_visible (o : Output) : (s.emit o).visible = s.visible := rfl
@[simp] theorem State.emit_cursor (o : Output) : (s.emit o).cursor = s.cursor := rfl
@[simp] theorem State.emit_firstAfterStart (o : Output) : (s.emit o).firstAfterStart = s.firstAfterStart := rfl
@[simp] theorem State.emit_tc (o : Output) : (s.emit o).tc = s.tc := rfl
@[simp] theorem State.emit_tf (o : Output) : (s.emit o).tf = s.tf := rfl
@[simp] theorem State.emit_lastBg (o : Output) : (s.emit o).lastBg = s.lastBg := rfl
@[simp] theorem State.emit_csIndex (o : Output) : (s.emit o).csIndex = s.csIndex := rfl
@[simp] theorem State.emit_bitmaps (o : Output) : (s.emit o).bitmaps = s.bitmaps := rfl
@[simp] theorem State.emit_imageColour (o : Output) : (s.emit o).imageColour = s.imageColour := rfl
@[simp] theorem State.emit_bboxes (o : Output) : (s.emit o).bboxes = s.bboxes := rfl
@[simp] theorem State.emit_sv (o : Output) : (s.emit o).sv = s.sv := rfl
@[simp] theorem State.emit_sp (o : Output) : (s.emit o).sp = s.sp := rfl
@[simp] theorem State.emit_sc (o : Output) : (s.emit o).sc = s.sc := rfl
@[simp] theorem State.emit_df (o : Output) : (s.emit o).df = s.df := rfl
@[simp] theorem State.emit_surface (o : Output) : (s.emit o).surface = s.surface := rfl
@[simp] theorem State.emit_draws (o : Output) : (s.emit o).draws = s.draws := rfl
@[simp] theorem State.emit_lastTime (o : Output) : (s.emit o).lastTime = s.lastTime := rfl
@[simp] theorem State.emit_lastPhase (o : Output) : (s.emit o).lastPhase = s.lastPhase := rfl
@[simp] theorem State.emit_inbox (o : Output) : (s.emit o).inbox = s.inbox := rfl
@[simp] theorem State.emit_out (o : Output) : (s.emit o).out = s.out ++ [o] := rfl

/-! `setPending` -/

@[simp] theorem State.setPending_cfg : (s.setPending).cfg = s.cfg := rfl
@[simp] theorem State.setPending_regs : (s.setPending).regs = s.regs := rfl
@[simp] theorem State.setPending_mode : (s.setPending).mode = s.mode := rfl
@[simp] theorem State.setPending_regDirty : (s.setPending).regDirty = s.regDirty := rfl
@[simp] theorem State.setPending_shapeDirty : (s.setPending).shapeDirty = s.shapeDirty := rfl
@[simp] theorem State.setPending_tileDirty : (s.setPending).tileDirty = s.tileDirty := rfl
@[simp] theorem State.setPending_pendingEnable : (s.setPending).pendingEnable = true := rfl
@[simp] theorem State.setPending_liveEnable : (s.setPending).liveEnable = s.liveEnable := rfl
@[simp] theorem State.setPending_regDeadline : (s.setPending).regDeadline = s.regDeadline := rfl
@[simp] theorem State.setPending_memDeadline : (s.setPending).memDeadline = s.memDeadline := rfl
@[simp] theorem State.setPending_isoEnd : (s.setPending).isoEnd = s.isoEnd := rfl
@[simp] theorem State.setPending_mem : (s.setPending).mem = s.mem := rfl
@[simp] theorem State.setPending_staging : (s.setPending).staging = s.staging := rfl
@[simp] theorem State.setPending_visible : (s.setPending).visible = s.visible := rfl
@[simp] theorem State.setPending_cursor : (s.setPending).cursor = s.cursor := rfl
@[simp] theorem State.setPending_firstAfterStart : (s.setPending).firstAfterStart = s.firstAfterStart := rfl
@[simp] theorem State.setPending_tc : (s.setPending).tc = s.tc := rfl
@[simp] theorem State.setPending_tf : (s.setPending).tf = s.tf := rfl
@[simp] theorem State.setPending_lastBg : (s.setPending).lastBg = s.lastBg := rfl
@[simp] theorem State.setPending_csIndex : (s.setPending).csIndex = s.csIndex := rfl
@[simp] theorem State.setPending_bitmaps : (s.setPending).bitmaps = s.bitmaps := rfl
@[simp] theorem State.setPending_imageColour : (s.setPending).imageColour = s.imageColour := rfl
@[simp] theorem State.setPending_bboxes : (s.setPending).bboxes = s.bboxes := rfl
@[simp] theorem State.setPending_sv : (s.setPending).sv = s.sv := rfl
@[simp] theorem State.setPending_sp : (s.setPending).sp = s.sp := rfl
@[simp] theorem State.setPending_sc : (s.setPending).sc = s.sc := rfl
@[simp] theorem State.setPending_df : (s.setPending).df = s.df := rfl
@[simp] theorem State.setPending_surface : (s.setPending).surface = s.surface := rfl
@[simp] theorem State.setPending_draws : (s.setPending).draws = s.draws := rfl
@[simp] theorem State.setPending_lastTime : (s.setPending).lastTime = s.lastTime := rfl
@[simp] theorem State.setPending_lastPhase : (s.setPending).lastPhase = s.lastPhase := rfl
@[simp] theorem State.setPending_inbox : (s.setPending).inbox = s.inbox := rfl
@[simp] theorem State.setPending_out : (s.setPending).out = s.out := rfl

/-! `latchEnable` -/

@[simp] theorem State.latchEnable_cfg : (s.latchEnable).cfg = s.cfg := rfl
@[simp] theorem State.latchEnable_regs : (s.latchEnable).regs = s.regs := rfl
@[simp] theorem State.latchEnable_mode : (s.latchEnable).mode = s.mode := rfl
@[simp] theorem State.latchEnable_regDirty : (s.latchEnable).regDirty = s.regDirty := rfl
@[simp] theorem State.latchEnable_shapeDirty : (s.latchEnable).shapeDirty = s.shapeDirty := rfl
@[simp] theorem State.latchEnable_tileDirty : (s.latchEnable).tileDirty = (s.tileDirty || (s.pendingEnable != s.liveEnable)) := rfl
@[simp] theorem State.latchEnable_pendingEnable : (s.latchEnable).pendingEnable = false := rfl
@[simp] theorem State.latchEnable_liveEnable : (s.latchEnable).liveEnable = s.pendingEnable := rfl
@[simp] theorem State.latchEnable_regDeadline : (s.latchEnable).regDeadline = s.regDeadline := rfl
@[simp] theorem State.latchEnable_memDeadline : (s.latchEnable).memDeadline = s.memDeadline := rfl
@[simp] theorem State.latchEnable_isoEnd : (s.latchEnable).isoEnd = s.isoEnd := rfl
@[simp] theorem State.latchEnable_mem : (s.latchEnable).mem = s.mem := rfl
@[simp] theorem State.latchEnable_staging : (s.latchEnable).staging = s.staging := rfl
@[simp] theorem State.latchEnable_visible : (s.latchEnable).visible = s.visible := rfl
@[simp] theorem State.latchEnable_cursor : (s.latchEnable).cursor = s.cursor := rfl
@[simp] theorem State.latchEnable_firstAfterStart : (s.latchEnable).firstAfterStart = s.firstAfterStart := rfl
@[simp] theorem State.latchEnable_tc : (s.latchEnable).tc = s.tc := rfl
@[simp] theorem State.latchEnable_tf : (s.latchEnable).tf = s.tf := rfl
@[simp] theorem State.latchEnable_lastBg : (s.latchEnable).lastBg = s.lastBg := rfl
@[simp] theorem State.latchEnable_csIndex : (s.latchEnable).csIndex = s.csIndex := rfl
@[simp] theorem State.latchEnable_bitmaps : (s.latchEnable).bitmaps = s.bitmaps := rfl
@[simp] theorem State.latchEnable_imageColour : (s.latchEnable).imageColour = s.imageColour := rfl
@[simp] theorem State.latchEnable_bboxes : (s.latchEnable).bboxes = s.bboxes := rfl
@[simp] theorem State.latchEnable_sv : (s.latchEnable).sv = s.sv := rfl
@[simp] theorem State.latchEnable_sp : (s.latchEnable).sp = s.sp := rfl
@[simp] theorem State.latchEnable_sc : (s.latchEnable).sc = s.sc := rfl
@[simp] theorem State.latchEnable_df : (s.latchEnable).df = s.df := rfl
@[simp] theorem State.latchEnable_surface : (s.latchEnable).surface = s.surface := rfl
@[simp] theorem State.latchEnable_draws : (s.latchEnable).draws = s.draws := rfl
@[simp] theorem State.latchEnable_lastTime : (s.latchEnable).lastTime = s.lastTime := rfl
@[simp] theorem State.latchEnable_lastPhase : (s.latchEnable).lastPhase = s.lastPhase := rfl
@[simp] theorem State.latchEnable_inbox : (s.latchEnable).inbox = s.inbox := rfl
@[simp] theorem State.latchEnable_out : (s.latchEnable).out = s.out := rfl

/-! `clearDirty` -/

@[simp] theorem State.clearDirty_cfg : (s.clearDirty).cfg = s.cfg := rfl
@[simp] theorem State.clearDirty_regs : (s.clearDirty).regs = s.regs := rfl
@[simp] theorem State.clearDirty_mode : (s.clearDirty).mode = s.mode := rfl
@[simp] theorem State.clearDirty_regDirty : (s.clearDirty).regDirty = false := rfl
@[simp] theorem State.clearDirty_shapeDirty : (s.clearDirty).shapeDirty = false := rfl
@[simp] theorem State.clearDirty_tileDirty : (s.clearDirty).tileDirty = false := rfl
@[simp] theorem State.clearDirty_pendingEnable : (s.clearDirty).pendingEnable = s.pendingEnable := rfl
@[simp] theorem State.clearDirty_liveEnable : (s.clearDirty).liveEnable = s.liveEnable := rfl
@[simp] theorem State.clearDirty_regDeadline : (s.clearDirty).regDeadline = s.regDeadline := rfl
@[simp] theorem State.clearDirty_memDeadline : (s.clearDirty).memDeadline = s.memDeadline := rfl
@[simp] theorem State.clearDirty_isoEnd : (s.clearDirty).isoEnd = s.isoEnd := rfl
@[simp] theorem State.clearDirty_mem : (s.clearDirty).mem = s.mem := rfl
@[simp] theorem State.clearDirty_staging : (s.clearDirty).staging = s.staging := rfl
@[simp] theorem State.clearDirty_visible : (s.clearDirty).visible = s.visible := rfl
@[simp] theorem State.clearDirty_cursor : (s.clearDirty).cursor = s.cursor := rfl
@[simp] theorem State.clearDirty_firstAfterStart : (s.clearDirty).firstAfterStart = s.firstAfterStart := rfl
@[simp] theorem State.clearDirty_tc : (s.clearDirty).tc = s.tc := rfl
@[simp] theorem State.clearDirty_tf : (s.clearDirty).tf = s.tf := rfl
@[simp] theorem State.clearDirty_lastBg : (s.clearDirty).lastBg = s.lastBg := rfl
@[simp] theorem State.clearDirty_csIndex : (s.clearDirty).csIndex = s.csIndex := rfl
@[simp] theorem State.clearDirty_bitmaps : (s.clearDirty).bitmaps = s.bitmaps := rfl
@[simp] theorem State.clearDirty_imageColour : (s.clearDirty).imageColour = s.imageColour := rfl
@[simp] theorem State.clearDirty_bboxes : (s.clearDirty).bboxes = s.bboxes := rfl
@[simp] theorem State.clearDirty_sv : (s.clearDirty).sv = s.sv := rfl
@[simp] theorem State.clearDirty_sp : (s.clearDirty).sp = s.sp := rfl
@[simp] theorem State.clearDirty_sc : (s.clearDirty).sc = s.sc := rfl
@[simp] theorem State.clearDirty_df : (s.clearDirty).df = s.df := rfl
@[simp] theorem State.clearDirty_surface : (s.clearDirty).surface = s.surface := rfl
@[simp] theorem State.clearDirty_draws : (s.clearDirty).draws = s.draws := rfl
@[simp] theorem State.clearDirty_lastTime : (s.clearDirty).lastTime = s.lastTime := rfl
@[simp] theorem State.clearDirty_lastPhase : (s.clearDirty).lastPhase = s.lastPhase := rfl
@[simp] theorem State.clearDirty_inbox : (s.clearDirty).inbox = s.inbox := rfl
@[simp] theorem State.clearDirty_out : (s.clearDirty).out = s.out := rfl

/-! `zeroRegs` -/

@[simp] theorem State.zeroRegs_cfg : (s.zeroRegs).cfg = s.cfg := rfl
@[simp] theorem State.zeroRegs_regs : (s.zeroRegs).regs = tab 64 fun _ => 0 := rfl
@[simp] theorem State.zeroRegs_mode : (s.zeroRegs).mode = s.mode := rfl
@[simp] theorem State.zeroRegs_regDirty : (s.zeroRegs).regDirty = s.regDirty := rfl
@[simp] theorem State.zeroRegs_shapeDirty : (s.zeroRegs).shapeDirty = s.shapeDirty := rfl
@[simp] theorem State.zeroRegs_tileDirty : (s.zeroRegs).tileDirty = s.tileDirty := rfl
@[simp] theorem State.zeroRegs_pendingEnable : (s.zeroRegs).pendingEnable = s.pendingEnable := rfl
@[simp] theorem State.zeroRegs_liveEnable : (s.zeroRegs).liveEnable = s.liveEnable := rfl
@[simp] theorem State.zeroRegs_regDeadline : (s.zeroRegs).regDeadline = s.regDeadline := rfl
@[simp] theorem State.zeroRegs_memDeadline : (s.zeroRegs).memDeadline = s.memDeadline := rfl
@[simp] theorem State.zeroRegs_isoEnd : (s.zeroRegs).isoEnd = s.isoEnd := rfl
@[simp] theorem State.zeroRegs_mem : (s.zeroRegs).mem = s.mem := rfl
@[simp] theorem State.zeroRegs_staging : (s.zeroRegs).staging = s.staging := rfl
@[simp] theorem State.zeroRegs_visible : (s.zeroRegs).visible = s.visible := rfl
@[simp] theorem State.zeroRegs_cursor : (s.zeroRegs).cursor = s.cursor := rfl
@[simp] theorem State.zeroRegs_firstAfterStart : (s.zeroRegs).firstAfterStart = s.firstAfterStart := rfl
@[simp] theorem State.zeroRegs_tc : (s.zeroRegs).tc = s.tc := rfl
@[simp] theorem State.zeroRegs_tf : (s.zeroRegs).tf = s.tf := rfl
@[simp] theorem State.zeroRegs_lastBg : (s.zeroRegs).lastBg = s.lastBg := rfl
@[simp] theorem State.zeroRegs_csIndex : (s.zeroRegs).csIndex = s.csIndex := rfl
@[simp] theorem State.zeroRegs_bitmaps : (s.zeroRegs).bitmaps = s.bitmaps := rfl
@[simp] theorem State.zeroRegs_imageColour : (s.zeroRegs).imageColour = s.imageColour := rfl
@[simp] theorem State.zeroRegs_bboxes : (s.zeroRegs).bboxes = s.bboxes := rfl
@[simp] theorem State.zeroRegs_sv : (s.zeroRegs).sv = s.sv := rfl
@[simp] theorem State.zeroRegs_sp : (s.zeroRegs).sp = s.sp := rfl
@[simp] theorem State.zeroRegs_sc : (s.zeroRegs).sc = s.sc := rfl
@[simp] theorem State.zeroRegs_df : (s.zeroRegs).df = s.df := rfl
@[simp] theorem State.zeroRegs_surface : (s.zeroRegs).surface = s.surface := rfl
@[simp] theorem State.zeroRegs_draws : (s.zeroRegs).draws = s.draws := rfl
@[simp] theorem State.zeroRegs_lastTime : (s.zeroRegs).lastTime = s.lastTime := rfl
@[simp] theorem State.zeroRegs_lastPhase : (s.zeroRegs).lastPhase = s.lastPhase := rfl
@[simp] theorem State.zeroRegs_inbox : (s.zeroRegs).inbox = s.inbox := rfl
@[simp] theorem State.zeroRegs_out : (s.zeroRegs).out = s.out := rfl

/-! `resetControl` -/

@[simp] theorem State.resetControl_cfg : (s.resetControl).cfg = s.cfg := rfl
@[simp] theorem State.resetControl_regs : (s.resetControl).regs = s.regs := rfl
@[simp] theorem State.resetControl_mode : (s.resetControl).mode = s.mode := rfl
@[simp] theorem State.resetControl_regDirty : (s.resetControl).regDirty = s.regDirty := rfl
@[simp] theorem State.resetControl_shapeDirty : (s.resetControl).shapeDirty = s.shapeDirty := rfl
@[simp] theorem State.resetControl_tileDirty : (s.resetControl).tileDirty = s.tileDirty := rfl
@[simp] theorem State.resetControl_pendingEnable : (s.resetControl).pendingEnable = s.pendingEnable := rfl
@[simp] theorem State.resetControl_liveEnable : (s.resetControl).liveEnable = s.liveEnable := rfl
@[simp] theorem State.resetControl_regDeadline : (s.resetControl).regDeadline = .closed := rfl
@[simp] theorem State.resetControl_memDeadline : (s.resetControl).memDeadline = .closed := rfl
@[simp] theorem State.resetControl_isoEnd : (s.resetControl).isoEnd = .inf := rfl
@[simp] theorem State.resetControl_mem : (s.resetControl).mem = s.mem := rfl
@[simp] theorem State.resetControl_staging : (s.resetControl).staging = s.staging := rfl
@[simp] theorem State.resetControl_visible : (s.resetControl).visible = s.visible := rfl
@[simp] theorem State.resetControl_cursor : (s.resetControl).cursor = 0 := rfl
@[simp] theorem State.resetControl_firstAfterStart : (s.resetControl).firstAfterStart = true := rfl
@[simp] theorem State.resetControl_tc : (s.resetControl).tc = s.tc := rfl
@[simp] theorem State.resetControl_tf : (s.resetControl).tf = s.tf := rfl
@[simp] theorem State.resetControl_lastBg : (s.resetControl).lastBg = s.lastBg := rfl
@[simp] theorem State.resetControl_csIndex : (s.resetControl).csIndex = s.csIndex := rfl
@[simp] theorem State.resetControl_bitmaps : (s.resetControl).bitmaps = s.bitmaps := rfl
@[simp] theorem State.resetControl_imageColour : (s.resetControl).imageColour = s.imageColour := rfl
@[simp] theorem State.resetControl_bboxes : (s.resetControl).bboxes = s.bboxes := rfl
@[simp] theorem State.resetControl_sv : (s.resetControl).sv = s.sv := rfl
@[simp] theorem State.resetControl_sp : (s.resetControl).sp = s.sp := rfl
@[simp] theorem State.resetControl_sc : (s.resetControl).sc = s.sc := rfl
@[simp] theorem State.resetControl_df : (s.resetControl).df = s.df := rfl
@[simp] theorem State.resetControl_surface : (s.resetControl).surface = s.surface := rfl
@[simp] theorem State.resetControl_draws : (s.resetControl).draws = s.draws := rfl
@[simp] theorem State.resetControl_lastTime : (s.resetControl).lastTime = s.lastTime := rfl
@[simp] theorem State.resetControl_lastPhase : (s.resetControl).lastPhase = s.lastPhase := rfl
@[simp] theorem State.resetControl_inbox : (s.resetControl).inbox = s.inbox := rfl
@[simp] theorem State.resetControl_out : (s.resetControl).out = s.out := rfl

/-! `tileRender` -/

@[simp] theorem State.tileRender_cfg : (s.tileRender).cfg = s.cfg := rfl
@[simp] theorem State.tileRender_regs : (s.tileRender).regs = s.regs := rfl
@[simp] theorem State.tileRender_mode : (s.tileRender).mode = s.mode := rfl
@[simp] theorem State.tileRender_regDirty : (s.tileRender).regDirty = s.regDirty := rfl
@[simp] theorem State.tileRender_shapeDirty : (s.tileRender).shapeDirty = s.shapeDirty := rfl
@[simp] theorem State.tileRender_tileDirty : (s.tileRender).tileDirty = s.tileDirty := rfl
@[simp] theorem State.tileRender_pendingEnable : (s.tileRender).pendingEnable = s.pendingEnable := rfl
@[simp] theorem State.tileRender_liveEnable : (s.tileRender).liveEnable = s.liveEnable := rfl
@[simp] theorem State.tileRender_regDeadline : (s.tileRender).regDeadline = s.regDeadline := rfl
@[simp] theorem State.tileRender_memDeadline : (s.tileRender).memDeadline = s.memDeadline := rfl
@[simp] theorem State.tileRender_isoEnd : (s.tileRender).isoEnd = s.isoEnd := rfl
@[simp] theorem State.tileRender_mem : (s.tileRender).mem = s.mem := rfl
@[simp] theorem State.tileRender_staging : (s.tileRender).staging = s.staging := rfl
@[simp] theorem State.tileRender_visible : (s.tileRender).visible = s.visible := rfl
@[simp] theorem State.tileRender_cursor : (s.tileRender).cursor = s.cursor := rfl
@[simp] theorem State.tileRender_firstAfterStart : (s.tileRender).firstAfterStart = s.firstAfterStart := rfl
@[simp] theorem State.tileRender_bitmaps : (s.tileRender).bitmaps = s.bitmaps := rfl
@[simp] theorem State.tileRender_imageColour : (s.tileRender).imageColour = s.imageColour := rfl
@[simp] theorem State.tileRender_bboxes : (s.tileRender).bboxes = s.bboxes := rfl
@[simp] theorem State.tileRender_sv : (s.tileRender).sv = s.sv := rfl
@[simp] theorem State.tileRender_sp : (s.tileRender).sp = s.sp := rfl
@[simp] theorem State.tileRender_sc : (s.tileRender).sc = s.sc := rfl
@[simp] theorem State.tileRender_df : (s.tileRender).df = s.df := rfl
@[simp] theorem State.tileRender_surface : (s.tileRender).surface = s.surface := rfl
@[simp] theorem State.tileRender_draws : (s.tileRender).draws = s.draws := rfl
@[simp] theorem State.tileRender_lastTime : (s.tileRender).lastTime = s.lastTime := rfl
@[simp] theorem State.tileRender_lastPhase : (s.tileRender).lastPhase = s.lastPhase := rfl
@[simp] theorem State.tileRender_inbox : (s.tileRender).inbox = s.inbox := rfl
@[simp] theorem State.tileRender_out : (s.tileRender).out = s.out := rfl

/-! `buildSprites` -/

@[simp] theorem State.buildSprites_cfg : (s.buildSprites).cfg = s.cfg := rfl
@[simp] theorem State.buildSprites_regs : (s.buildSprites).regs = s.regs := rfl
@[simp] theorem State.buildSprites_mode : (s.buildSprites).mode = s.mode := rfl
@[simp] theorem State.buildSprites_regDirty : (s.buildSprites).regDirty = s.regDirty := rfl
@[simp] theorem State.buildSprites_shapeDirty : (s.buildSprites).shapeDirty = s.shapeDirty := rfl
@[simp] theorem State.buildSprites_tileDirty : (s.buildSprites).tileDirty = s.tileDirty := rfl
@[simp] theorem State.buildSprites_pendingEnable : (s.buildSprites).pendingEnable = s.pendingEnable := rfl
@[simp] theorem State.buildSprites_liveEnable : (s.buildSprites).liveEnable = s.liveEnable := rfl
@[simp] theorem State.buildSprites_regDeadline : (s.buildSprites).regDeadline = s.regDeadline := rfl
@[simp] theorem State.buildSprites_memDeadline : (s.buildSprites).memDeadline = s.memDeadline := rfl
@[simp] theorem State.buildSprites_isoEnd : (s.buildSprites).isoEnd = s.isoEnd := rfl
@[simp] theorem State.buildSprites_mem : (s.buildSprites).mem = s.mem := rfl
@[simp] theorem State.buildSprites_staging : (s.buildSprites).staging = s.staging := rfl
@[simp] theorem State.buildSprites_visible : (s.buildSprites).visible = s.visible := rfl
@[simp] theorem State.buildSprites_cursor : (s.buildSprites).cursor = s.cursor := rfl
@[simp] theorem State.buildSprites_firstAfterStart : (s.buildSprites).firstAfterStart = s.firstAfterStart := rfl
@[simp] theorem State.buildSprites_tc : (s.buildSprites).tc = s.tc := rfl
@[simp] theorem State.buildSprites_tf : (s.buildSprites).tf = s.tf := rfl
@[simp] theorem State.buildSprites_lastBg : (s.buildSprites).lastBg = s.lastBg := rfl
@[simp] theorem State.buildSprites_csIndex : (s.buildSprites).csIndex = s.csIndex := rfl
@[simp] theorem State.buildSprites_sv : (s.buildSprites).sv = s.sv := rfl
@[simp] theorem State.buildSprites_sp : (s.buildSprites).sp = s.sp := rfl
@[simp] theorem State.buildSprites_sc : (s.buildSprites).sc = s.sc := rfl
@[simp] theorem State.buildSprites_df : (s.buildSprites).df = s.df := rfl
@[simp] theorem State.buildSprites_surface : (s.buildSprites).surface = s.surface := rfl
@[simp] theorem State.buildSprites_draws : (s.buildSprites).draws = s.draws := rfl
@[simp] theorem State.buildSprites_lastTime : (s.buildSprites).lastTime = s.lastTime := rfl
@[simp] theorem State.buildSprites_lastPhase : (s.buildSprites).lastPhase = s.lastPhase := rfl
@[simp] theorem State.buildSprites_inbox : (s.buildSprites).inbox = s.inbox := rfl
@[simp] theorem State.buildSprites_out : (s.buildSprites).out = s.out := rfl

/-! `clearPlanes` -/

@[simp] theorem State.clearPlanes_cfg : (s.clearPlanes).cfg = s.cfg := rfl
@[simp] theorem State.clearPlanes_regs : (s.clearPlanes).regs = s.regs := rfl
@[simp] theorem State.clearPlanes_mode : (s.clearPlanes).mode = s.mode := rfl
@[simp] theorem State.clearPlanes_regDirty : (s.clearPlanes).regDirty = s.regDirty := rfl
@[simp] theorem State.clearPlanes_shapeDirty : (s.clearPlanes).shapeDirty = s.shapeDirty := rfl
@[simp] theorem State.clearPlanes_tileDirty : (s.clearPlanes).tileDirty = s.tileDirty := rfl
@[simp] theorem State.clearPlanes_pendingEnable : (s.clearPlanes).pendingEnable = s.pendingEnable := rfl
@[simp] theorem State.clearPlanes_liveEnable : (s.clearPlanes).liveEnable = s.liveEnable := rfl
@[simp] theorem State.clearPlanes_regDeadline : (s.clearPlanes).regDeadline = s.regDeadline := rfl
@[simp] theorem State.clearPlanes_memDeadline : (s.clearPlanes).memDeadline = s.memDeadline := rfl
@[simp] theorem State.clearPlanes_isoEnd : (s.clearPlanes).isoEnd = s.isoEnd := rfl
@[simp] theorem State.clearPlanes_mem : (s.clearPlanes).mem = s.mem := rfl
@[simp] theorem State.clearPlanes_staging : (s.clearPlanes).staging = s.staging := rfl
@[simp] theorem State.clearPlanes_visible : (s.clearPlanes).visible = s.visible := rfl
@[simp] theorem State.clearPlanes_cursor : (s.clearPlanes).cursor = s.cursor := rfl
@[simp] theorem State.clearPlanes_firstAfterStart : (s.clearPlanes).firstAfterStart = s.firstAfterStart := rfl
@[simp] theorem State.clearPlanes_tc : (s.clearPlanes).tc = s.tc := rfl
@[simp] theorem State.clearPlanes_tf : (s.clearPlanes).tf = s.tf := rfl
@[simp] theorem State.clearPlanes_lastBg : (s.clearPlanes).lastBg = s.lastBg := rfl
@[simp] theorem State.clearPlanes_csIndex : (s.clearPlanes).csIndex = s.csIndex := rfl
@[simp] theorem State.clearPlanes_bitmaps : (s.clearPlanes).bitmaps = s.bitmaps := rfl
@[simp] theorem State.clearPlanes_imageColour : (s.clearPlanes).imageColour = s.imageColour := rfl
@[simp] theorem State.clearPlanes_bboxes : (s.clearPlanes).bboxes = s.bboxes := rfl
@[simp] theorem State.clearPlanes_sv : (s.clearPlanes).sv = Plane.fill 168 208 false := rfl
@[simp] theorem State.clearPlanes_sp : (s.clearPlanes).sp = Plane.fill 168 208 false := rfl
@[simp] theorem State.clearPlanes_sc : (s.clearPlanes).sc = s.sc := rfl
@[simp] theorem State.clearPlanes_df : (s.clearPlanes).df = s.df := rfl
@[simp] theorem State.clearPlanes_surface : (s.clearPlanes).surface = s.surface := rfl
@[simp] theorem State.clearPlanes_draws : (s.clearPlanes).draws = s.draws := rfl
@[simp] theorem State.clearPlanes_lastTime : (s.clearPlanes).lastTime = s.lastTime := rfl
@[simp] theorem State.clearPlanes_lastPhase : (s.clearPlanes).lastPhase = s.lastPhase := rfl
@[simp] theorem State.clearPlanes_inbox : (s.clearPlanes).inbox = s.inbox := rfl
@[simp] theorem State.clearPlanes_out : (s.clearPlanes).out = s.out := rfl

/-! `composite` -/

@[simp] theorem State.composite_cfg : (s.composite).cfg = s.cfg := rfl
@[simp] theorem State.composite_regs : (s.composite).regs = s.regs := rfl
@[simp] theorem State.composite_mode : (s.composite).mode = s.mode := rfl
@[simp] theorem State.composite_regDirty : (s.composite).regDirty = s.regDirty := rfl
@[simp] theorem State.composite_shapeDirty : (s.composite).shapeDirty = s.shapeDirty := rfl
@[simp] theorem State.composite_tileDirty : (s.composite).tileDirty = s.tileDirty := rfl
@[simp] theorem State.composite_pendingEnable : (s.composite).pendingEnable = s.pendingEnable := rfl
@[simp] theorem State.composite_liveEnable : (s.composite).liveEnable = s.liveEnable := rfl
@[simp] theorem State.composite_regDeadline : (s.composite).regDeadline = s.regDeadline := rfl
@[simp] theorem State.composite_memDeadline : (s.composite).memDeadline = s.memDeadline := rfl
@[simp] theorem State.composite_isoEnd : (s.composite).isoEnd = s.isoEnd := rfl
@[simp] theorem State.composite_mem : (s.composite).mem = s.mem := rfl
@[simp] theorem State.composite_staging : (s.composite).staging = s.staging := rfl
@[simp] theorem State.composite_visible : (s.composite).visible = s.visible := rfl
@[simp] theorem State.composite_cursor : (s.composite).cursor = s.cursor := rfl
@[simp] theorem State.composite_firstAfterStart : (s.composite).firstAfterStart = s.firstAfterStart := rfl
@[simp] theorem State.composite_tc : (s.composite).tc = s.tc := rfl
@[simp] theorem State.composite_tf : (s.composite).tf = s.tf := rfl
@[simp] theorem State.composite_lastBg : (s.composite).lastBg = s.lastBg := rfl
@[simp] theorem State.composite_csIndex : (s.composite).csIndex = s.csIndex := rfl
@[simp] theorem State.composite_bitmaps : (s.composite).bitmaps = s.bitmaps := rfl
@[simp] theorem State.composite_imageColour : (s.composite).imageColour = s.imageColour := rfl
@[simp] theorem State.composite_bboxes : (s.composite).bboxes = s.bboxes := rfl
@[simp] theorem State.composite_df : (s.composite).df = s.df := rfl
@[simp] theorem State.composite_surface : (s.composite).surface = s.surface := rfl
@[simp] theorem State.composite_draws : (s.composite).draws = s.draws := rfl
@[simp] theorem State.composite_lastTime : (s.composite).lastTime = s.lastTime := rfl
@[simp] theorem State.composite_lastPhase : (s.composite).lastPhase = s.lastPhase := rfl
@[simp] theorem State.composite_inbox : (s.composite).inbox = s.inbox := rfl
@[simp] theorem State.composite_out : (s.composite).out = s.out := rfl

/-! `edgeFixup` -/

@[simp] theorem State.edgeFixup_cfg : (s.edgeFixup).cfg = s.cfg := rfl
@[simp] theorem State.edgeFixup_regs : (s.edgeFixup).regs = s.regs := rfl
@[simp] theorem State.edgeFixup_mode : (s.edgeFixup).mode = s.mode := rfl
@[simp] theorem State.edgeFixup_regDirty : (s.edgeFixup).regDirty = s.regDirty := rfl
@[simp] theorem State.edgeFixup_shapeDirty : (s.edgeFixup).shapeDirty = s.shapeDirty := rfl
@[simp] theorem State.edgeFixup_tileDirty : (s.edgeFixup).tileDirty = s.tileDirty := rfl
@[simp] theorem State.edgeFixup_pendingEnable : (s.edgeFixup).pendingEnable = s.pendingEnable := rfl
@[simp] theorem State.edgeFixup_liveEnable : (s.edgeFixup).liveEnable = s.liveEnable := rfl
@[simp] theorem State.edgeFixup_regDeadline : (s.edgeFixup).regDeadline = s.regDeadline := rfl
@[simp] theorem State.edgeFixup_memDeadline : (s.edgeFixup).memDeadline = s.memDeadline := rfl
@[simp] theorem State.edgeFixup_isoEnd : (s.edgeFixup).isoEnd = s.isoEnd := rfl
@[simp] theorem State.edgeFixup_mem : (s.edgeFixup).mem = s.mem := rfl
@[simp] theorem State.edgeFixup_staging : (s.edgeFixup).staging = s.staging := rfl
@[simp] theorem State.edgeFixup_visible : (s.edgeFixup).visible = s.visible := rfl
@[simp] theorem State.edgeFixup_cursor : (s.edgeFixup).cursor = s.cursor := rfl
@[simp] theorem State.edgeFixup_firstAfterStart : (s.edgeFixup).firstAfterStart = s.firstAfterStart := rfl
@[simp] theorem State.edgeFixup_tc : (s.edgeFixup).tc = s.tc := rfl
@[simp] theorem State.edgeFixup_lastBg : (s.edgeFixup).lastBg = s.lastBg := rfl
@[simp] theorem State.edgeFixup_csIndex : (s.edgeFixup).csIndex = s.csIndex := rfl
@[simp] theorem State.edgeFixup_bitmaps : (s.edgeFixup).bitmaps = s.bitmaps := rfl
@[simp] theorem State.edgeFixup_imageColour : (s.edgeFixup).imageColour = s.imageColour := rfl
@[simp] theorem State.edgeFixup_bboxes : (s.edgeFixup).bboxes = s.bboxes := rfl
@[simp] theorem State.edgeFixup_sp : (s.edgeFixup).sp = s.sp := rfl
@[simp] theorem State.edgeFixup_sc : (s.edgeFixup).sc = s.sc := rfl
@[simp] theorem State.edgeFixup_df : (s.edgeFixup).df = s.df := rfl
@[simp] theorem State.edgeFixup_surface : (s.edgeFixup).surface = s.surface := rfl
@[simp] theorem State.edgeFixup_draws : (s.edgeFixup).draws = s.draws := rfl
@[simp] theorem State.edgeFixup_lastTime : (s.edgeFixup).lastTime = s.lastTime := rfl
@[simp] theorem State.edgeFixup_lastPhase : (s.edgeFixup).lastPhase = s.lastPhase := rfl
@[simp] theorem State.edgeFixup_inbox : (s.edgeFixup).inbox = s.inbox := rfl
@[simp] theorem State.edgeFixup_out : (s.edgeFixup).out = s.out := rfl

/-! `seedCells` -/

@[simp] theorem State.seedCells_cfg : (s.seedCells).cfg = s.cfg := rfl
@[simp] theorem State.seedCells_regs : (s.seedCells).regs = s.regs := rfl
@[simp] theorem State.seedCells_mode : (s.seedCells).mode = s.mode := rfl
@[simp] theorem State.seedCells_regDirty : (s.seedCells).regDirty = s.regDirty := rfl
@[simp] theorem State.seedCells_shapeDirty : (s.seedCells).shapeDirty = s.shapeDirty := rfl
@[simp] theorem State.seedCells_tileDirty : (s.seedCells).tileDirty = s.tileDirty := rfl
@[simp] theorem State.seedCells_pendingEnable : (s.seedCells).pendingEnable = s.pendingEnable := rfl
@[simp] theorem State.seedCells_liveEnable : (s.seedCells).liveEnable = s.liveEnable := rfl
@[simp] theorem State.seedCells_regDeadline : (s.seedCells).regDeadline = s.regDeadline := rfl
@[simp] theorem State.seedCells_memDeadline : (s.seedCells).memDeadline = s.memDeadline := rfl
@[simp] theorem State.seedCells_isoEnd : (s.seedCells).isoEnd = s.isoEnd := rfl
@[simp] theorem State.seedCells_mem : (s.seedCells).mem = s.mem := rfl
@[simp] theorem State.seedCells_staging : (s.seedCells).staging = s.staging := rfl
@[simp] theorem State.seedCells_visible : (s.seedCells).visible = s.visible := rfl
@[simp] theorem State.seedCells_cursor : (s.seedCells).cursor = s.cursor := rfl
@[simp] theorem State.seedCells_firstAfterStart : (s.seedCells).firstAfterStart = s.firstAfterStart := rfl
@[simp] theorem State.seedCells_lastBg : (s.seedCells).lastBg = s.lastBg := rfl
@[simp] theorem State.seedCells_csIndex : (s.seedCells).csIndex = s.csIndex := rfl
@[simp] theorem State.seedCells_bitmaps : (s.seedCells).bitmaps = s.bitmaps := rfl
@[simp] theorem State.seedCells_imageColour : (s.seedCells).imageColour = s.imageColour := rfl
@[simp] theorem State.seedCells_bboxes : (s.seedCells).bboxes = s.bboxes := rfl
@[simp] theorem State.seedCells_sv : (s.seedCells).sv = s.sv := rfl
@[simp] theorem State.seedCells_sp : (s.seedCells).sp = s.sp := rfl
@[simp] theorem State.seedCells_sc : (s.seedCells).sc = s.sc := rfl
@[simp] theorem State.seedCells_df : (s.seedCells).df = s.df := rfl
@[simp] theorem State.seedCells_surface : (s.seedCells).surface = s.surface := rfl
@[simp] theorem State.seedCells_draws : (s.seedCells).draws = s.draws + 1 := rfl
@[simp] theorem State.seedCells_lastTime : (s.seedCells).lastTime = s.lastTime := rfl
@[simp] theorem State.seedCells_lastPhase : (s.seedCells).lastPhase = s.lastPhase := rfl
@[simp] theorem State.seedCells_inbox : (s.seedCells).inbox = s.inbox := rfl
@[simp] theorem State.seedCells_out : (s.seedCells).out = s.out := rfl

/-! `mergeFrame` -/

@[simp] theorem State.mergeFrame_cfg : (s.mergeFrame).cfg = s.cfg := rfl
@[simp] theorem State.mergeFrame_regs : (s.mergeFrame).regs = s.regs := rfl
@[simp] theorem State.mergeFrame_mode : (s.mergeFrame).mode = s.mode := rfl
@[simp] theorem State.mergeFrame_regDirty : (s.mergeFrame).regDirty = s.regDirty := rfl
@[simp] theorem State.mergeFrame_shapeDirty : (s.mergeFrame).shapeDirty = s.shapeDirty := rfl
@[simp] theorem State.mergeFrame_tileDirty : (s.mergeFrame).tileDirty = s.tileDirty := rfl
@[simp] theorem State.mergeFrame_pendingEnable : (s.mergeFrame).pendingEnable = s.pendingEnable := rfl
@[simp] theorem State.mergeFrame_liveEnable : (s.mergeFrame).liveEnable = s.liveEnable := rfl
@[simp] theorem State.mergeFrame_regDeadline : (s.mergeFrame).regDeadline = s.regDeadline := rfl
@[simp] theorem State.mergeFrame_memDeadline : (s.mergeFrame).memDeadline = s.memDeadline := rfl
@[simp] theorem State.mergeFrame_isoEnd : (s.mergeFrame).isoEnd = s.isoEnd := rfl
@[simp] theorem State.mergeFrame_mem : (s.mergeFrame).mem = s.mem := rfl
@[simp] theorem State.mergeFrame_staging : (s.mergeFrame).staging = s.staging := rfl
@[simp] theorem State.mergeFrame_visible : (s.mergeFrame).visible = s.visible := rfl
@[simp] theorem State.mergeFrame_cursor : (s.mergeFrame).cursor = s.cursor := rfl
@[simp] theorem State.mergeFrame_firstAfterStart : (s.mergeFrame).firstAfterStart = s.firstAfterStart := rfl
@[simp] theorem State.mergeFrame_tc : (s.mergeFrame).tc = s.tc := rfl
@[simp] theorem State.mergeFrame_tf : (s.mergeFrame).tf = s.tf := rfl
@[simp] theorem State.mergeFrame_lastBg : (s.mergeFrame).lastBg = s.lastBg := rfl
@[simp] theorem State.mergeFrame_csIndex : (s.mergeFrame).csIndex = s.csIndex := rfl
@[simp] theorem State.mergeFrame_bitmaps : (s.mergeFrame).bitmaps = s.bitmaps := rfl
@[simp] theorem State.mergeFrame_imageColour : (s.mergeFrame).imageColour = s.imageColour := rfl
@[simp] theorem State.mergeFrame_bboxes : (s.mergeFrame).bboxes = s.bboxes := rfl
@[simp] theorem State.mergeFrame_sv : (s.mergeFrame).sv = s.sv := rfl
@[simp] theorem State.mergeFrame_sp : (s.mergeFrame).sp = s.sp := rfl
@[simp] theorem State.mergeFrame_sc : (s.mergeFrame).sc = s.sc := rfl
@[simp] theorem State.mergeFrame_df : (s.mergeFrame).df = Plane.ofFn 176 224 s.displayPixel := rfl
@[simp] theorem State.mergeFrame_surface : (s.mergeFrame).surface = s.surface := rfl
@[simp] theorem State.mergeFrame_draws : (s.mergeFrame).draws = s.draws := rfl
@[simp] theorem State.mergeFrame_lastTime : (s.mergeFrame).lastTime = s.lastTime := rfl
@[simp] theorem State.mergeFrame_lastPhase : (s.mergeFrame).lastPhase = s.lastPhase := rfl
@[simp] theorem State.mergeFrame_inbox : (s.mergeFrame).inbox = s.inbox := rfl
@[simp] theorem State.mergeFrame_out : (s.mergeFrame).out = s.out := rfl

/-! `unpack` -/

@[simp] theorem State.unpack_cfg : (s.unpack).cfg = s.cfg := rfl
@[simp] theorem State.unpack_regs : (s.unpack).regs = s.regs := rfl
@[simp] theorem State.unpack_mode : (s.unpack).mode = s.mode := rfl
@[simp] theorem State.unpack_regDirty : (s.unpack).regDirty = s.regDirty := rfl
@[simp] theorem State.unpack_shapeDirty : (s.unpack).shapeDirty = s.shapeDirty := rfl
@[simp] theorem State.unpack_tileDirty : (s.unpack).tileDirty = s.tileDirty := rfl
@[simp] theorem State.unpack_pendingEnable : (s.unpack).pendingEnable = s.pendingEnable := rfl
@[simp] theorem State.unpack_liveEnable : (s.unpack).liveEnable = s.liveEnable := rfl
@[simp] theorem State.unpack_regDeadline : (s.unpack).regDeadline = s.regDeadline := rfl
@[simp] theorem State.unpack_memDeadline : (s.unpack).memDeadline = s.memDeadline := rfl
@[simp] theorem State.unpack_isoEnd : (s.unpack).isoEnd = s.isoEnd := rfl
@[simp] theorem State.unpack_mem : (s.unpack).mem = s.mem := rfl
@[simp] theorem State.unpack_staging : (s.unpack).staging = s.staging := rfl
@[simp] theorem State.unpack_visible : (s.unpack).visible = s.visible := rfl
@[simp] theorem State.unpack_cursor : (s.unpack).cursor = s.cursor := rfl
@[simp] theorem State.unpack_firstAfterStart : (s.unpack).firstAfterStart = s.firstAfterStart := rfl
@[simp] theorem State.unpack_tc : (s.unpack).tc = s.tc := rfl
@[simp] theorem State.unpack_tf : (s.unpack).tf = s.tf := rfl
@[simp] theorem State.unpack_lastBg : (s.unpack).lastBg = s.lastBg := rfl
@[simp] theorem State.unpack_csIndex : (s.unpack).csIndex = s.csIndex := rfl
@[simp] theorem State.unpack_bitmaps : (s.unpack).bitmaps = s.bitmaps := rfl
@[simp] theorem State.unpack_imageColour : (s.unpack).imageColour = s.imageColour := rfl
@[simp] theorem State.unpack_bboxes : (s.unpack).bboxes = s.bboxes := rfl
@[simp] theorem State.unpack_sv : (s.unpack).sv = s.sv := rfl
@[simp] theorem State.unpack_sp : (s.unpack).sp = s.sp := rfl
@[simp] theorem State.unpack_sc : (s.unpack).sc = s.sc := rfl
@[simp] theorem State.unpack_df : (s.unpack).df = s.df := rfl
@[simp] theorem State.unpack_draws : (s.unpack).draws = s.draws := rfl
@[simp] theorem State.unpack_lastTime : (s.unpack).lastTime = s.lastTime := rfl
@[simp] theorem State.unpack_lastPhase : (s.unpack).lastPhase = s.lastPhase := rfl
@[simp] theorem State.unpack_inbox : (s.unpack).inbox = s.inbox := rfl
@[simp] theorem State.unpack_out : (s.unpack).out = s.out := rfl

/-! `emitColl` -/

@[simp] theorem State.emitColl_cfg : (s.emitColl).cfg = s.cfg := rfl
@[simp] theorem State.emitColl_regs : (s.emitColl).regs = s.regs := rfl
@[simp] theorem State.emitColl_mode : (s.emitColl).mode = s.mode := rfl
@[simp] theorem State.emitColl_regDirty : (s.emitColl).regDirty = s.regDirty := rfl
@[simp] theorem State.emitColl_shapeDirty : (s.emitColl).shapeDirty = s.shapeDirty := rfl
@[simp] theorem State.emitColl_tileDirty : (s.emitColl).tileDirty = s.tileDirty := rfl
@[simp] theorem State.emitColl_pendingEnable : (s.emitColl).pendingEnable = s.pendingEnable := rfl
@[simp] theorem State.emitColl_liveEnable : (s.emitColl).liveEnable = s.liveEnable := rfl
@[simp] theorem State.emitColl_regDeadline : (s.emitColl).regDeadline = s.regDeadline := rfl
@[simp] theorem State.emitColl_memDeadline : (s.emitColl).memDeadline = s.memDeadline := rfl
@[simp] theorem State.emitColl_isoEnd : (s.emitColl).isoEnd = s.isoEnd := rfl
@[simp] theorem State.emitColl_mem : (s.emitColl).mem = s.mem := rfl
@[simp] theorem State.emitColl_staging : (s.emitColl).staging = s.staging := rfl
@[simp] theorem State.emitColl_visible : (s.emitColl).visible = s.visible := rfl
@[simp] theorem State.emitColl_cursor : (s.emitColl).cursor = s.cursor := rfl
@[simp] theorem State.emitColl_firstAfterStart : (s.emitColl).firstAfterStart = s.firstAfterStart := rfl
@[simp] theorem State.emitColl_tc : (s.emitColl).tc = s.tc := rfl
@[simp] theorem State.emitColl_tf : (s.emitColl).tf = s.tf := rfl
@[simp] theorem State.emitColl_lastBg : (s.emitColl).lastBg = s.lastBg := rfl
@[simp] theorem State.emitColl_csIndex : (s.emitColl).csIndex = s.csIndex := rfl
@[simp] theorem State.emitColl_bitmaps : (s.emitColl).bitmaps = s.bitmaps := rfl
@[simp] theorem State.emitColl_imageColour : (s.emitColl).imageColour = s.imageColour := rfl
@[simp] theorem State.emitColl_bboxes : (s.emitColl).bboxes = s.bboxes := rfl
@[simp] theorem State.emitColl_sv : (s.emitColl).sv = s.sv := rfl
@[simp] theorem State.emitColl_sp : (s.emitColl).sp = s.sp := rfl
@[simp] theorem State.emitColl_sc : (s.emitColl).sc = s.sc := rfl
@[simp] theorem State.emitColl_df : (s.emitColl).df = s.df := rfl
@[simp] theorem State.emitColl_surface : (s.emitColl).surface = s.surface := rfl
@[simp] theorem State.emitColl_draws : (s.emitColl).draws = s.draws := rfl
@[simp] theorem State.emitColl_lastTime : (s.emitColl).lastTime = s.lastTime := rfl
@[simp] theorem State.emitColl_lastPhase : (s.emitColl).lastPhase = s.lastPhase := rfl
@[simp] theorem State.emitColl_inbox : (s.emitColl).inbox = s.inbox := rfl
@[simp] theorem State.emitColl_out : (s.emitColl).out = s.out ++ [.collRun (tab 8 s.collSprite) s.tf] := rfl

/-! `store` -/

@[simp] theorem State.store_cfg (a : RegAddr) (v : Word) : (s.store a v).cfg = s.cfg := by
  unfold State.store; split <;> rfl
@[simp] theorem State.store_mode (a : RegAddr) (v : Word) : (s.store a v).mode = s.mode := by
  unfold State.store; split <;> rfl
@[simp] theorem State.store_shapeDirty (a : RegAddr) (v : Word) : (s.store a v).shapeDirty = s.shapeDirty := by
  unfold State.store; split <;> rfl
@[simp] theorem State.store_tileDirty (a : RegAddr) (v : Word) : (s.store a v).tileDirty = s.tileDirty := by
  unfold State.store; split <;> rfl
@[simp] theorem State.store_pendingEnable (a : RegAddr) (v : Word) : (s.store a v).pendingEnable = s.pendingEnable := by
  unfold State.store; split <;> rfl
@[simp] theorem State.store_liveEnable (a : RegAddr) (v : Word) : (s.store a v).liveEnable = s.liveEnable := by
  unfold State.store; split <;> rfl
@[simp] theorem State.store_regDeadline (a : RegAddr) (v : Word) : (s.store a v).regDeadline = s.regDeadline := by
  unfold State.store; split <;> rfl
@[simp] theorem State.store_memDeadline (a : RegAddr) (v : Word) : (s.store a v).memDeadline = s.memDeadline := by
  unfold State.store; split <;> rfl
@[simp] theorem State.store_isoEnd (a : RegAddr) (v : Word) : (s.store a v).isoEnd = s.isoEnd := by
  unfold State.store; split <;> rfl
@[simp] theorem State.store_mem (a : RegAddr) (v : Word) : (s.store a v).mem = s.mem := by
  unfold State.store; split <;> rfl
@[simp] theorem State.store_staging (a : RegAddr) (v : Word) : (s.store a v).staging = s.staging := by
  unfold State.store; split <;> rfl
@[simp] theorem State.store_visible (a : RegAddr) (v : Word) : (s.store a v).visible = s.visible := by
  unfold State.store; split <;> rfl
@[simp] theorem State.store_cursor (a : RegAddr) (v : Word) : (s.store a v).cursor = s.cursor := by
  unfold State.store; split <;> rfl
@[simp] theorem State.store_firstAfterStart (a : RegAddr) (v : Word) : (s.store a v).firstAfterStart = s.firstAfterStart := by
  unfold State.store; split <;> rfl
@[simp] theorem State.store_tc (a : RegAddr) (v : Word) : (s.store a v).tc = s.tc := by
  unfold State.store; split <;> rfl
@[simp] theorem State.store_tf (a : RegAddr) (v : Word) : (s.store a v).tf = s.tf := by
  unfold State.store; split <;> rfl
@[simp] theorem State.store_lastBg (a : RegAddr) (v : Word) : (s.store a v).lastBg = s.lastBg := by
  unfold State.store; split <;> rfl
@[simp] theorem State.store_csIndex (a : RegAddr) (v : Word) : (s.store a v).csIndex = s.csIndex := by
  unfold State.store; split <;> rfl
@[simp] theorem State.store_bitmaps (a : RegAddr) (v : Word) : (s.store a v).bitmaps = s.bitmaps := by
  unfold State.store; split <;> rfl
@[simp] theorem State.store_imageColour (a : RegAddr) (v : Word) : (s.store a v).imageColour = s.imageColour := by
  unfold State.store; split <;> rfl
@[simp] theorem State.store_bboxes (a : RegAddr) (v : Word) : (s.store a v).bboxes = s.bboxes := by
  unfold State.store; split <;> rfl
@[simp] theorem State.store_sv (a : RegAddr) (v : Word) : (s.store a v).sv = s.sv := by
  unfold State.store; split <;> rfl
@[simp] theorem State.store_sp (a : RegAddr) (v : Word) : (s.store a v).sp = s.sp := by
  unfold State.store; split <;> rfl
@[simp] theorem State.store_sc (a : RegAddr) (v : Word) : (s.store a v).sc = s.sc := by
  unfold State.store; split <;> rfl
@[simp] theorem State.store_df (a : RegAddr) (v : Word) : (s.store a v).df = s.df := by
  unfold State.store; split <;> rfl
@[simp] theorem State.store_surface (a : RegAddr) (v : Word) : (s.store a v).surface = s.surface := by
  unfold State.store; split <;> rfl
@[simp] theorem State.store_draws (a : RegAddr) (v : Word) : (s.store a v).draws = s.draws := by
  unfold State.store; split <;> rfl
@[simp] theorem State.store_lastTime (a : RegAddr) (v : Word) : (s.store a v).lastTime = s.lastTime := by
  unfold State.store; split <;> rfl
@[simp] theorem State.store_lastPhase (a : RegAddr) (v : Word) : (s.store a v).lastPhase = s.lastPhase := by
  unfold State.store; split <;> rfl
@[simp] theorem State.store_inbox (a : RegAddr) (v : Word) : (s.store a v).inbox = s.inbox := by
  unfold State.store; split <;> rfl
@[simp] theorem State.store_out (a : RegAddr) (v : Word) : (s.store a v).out = s.out := by
  unfold State.store; split <;> rfl

/-! `modeSet` -/

@[simp] theorem State.modeSet_cfg (m : Mode) : (s.modeSet m).cfg = s.cfg := by
  unfold State.modeSet; split <;> rfl
@[simp] theorem State.modeSet_regs (m : Mode) : (s.modeSet m).regs = s.regs := by
  unfold State.modeSet; split <;> rfl
@[simp] theorem State.modeSet_mode (m : Mode) : (s.modeSet m).mode = m := by
  unfold State.modeSet; split
  · assumption
  · rfl
@[simp] theorem State.modeSet_regDirty (m : Mode) : (s.modeSet m).regDirty = s.regDirty := by
  unfold State.modeSet; split <;> rfl
@[simp] theorem State.modeSet_shapeDirty (m : Mode) : (s.modeSet m).shapeDirty = s.shapeDirty := by
  unfold State.modeSet; split <;> rfl
@[simp] theorem State.modeSet_pendingEnable (m : Mode) : (s.modeSet m).pendingEnable = s.pendingEnable := by
  unfold State.modeSet; split <;> rfl
@[simp] theorem State.modeSet_liveEnable (m : Mode) : (s.modeSet m).liveEnable = s.liveEnable := by
  unfold State.modeSet; split <;> rfl
@[simp] theorem State.modeSet_regDeadline (m : Mode) : (s.modeSet m).regDeadline = s.regDeadline := by
  unfold State.modeSet; split <;> rfl
@[simp] theorem State.modeSet_memDeadline (m : Mode) : (s.modeSet m).memDeadline = s.memDeadline := by
  unfold State.modeSet; split <;> rfl
@[simp] theorem State.modeSet_isoEnd (m : Mode) : (s.modeSet m).isoEnd = s.isoEnd := by
  unfold State.modeSet; split <;> rfl
@[simp] theorem State.modeSet_mem (m : Mode) : (s.modeSet m).mem = s.mem := by
  unfold State.modeSet; split <;> rfl
@[simp] theorem State.modeSet_staging (m : Mode) : (s.modeSet m).staging = s.staging := by
  unfold State.modeSet; split <;> rfl
@[simp] theorem State.modeSet_visible (m : Mode) : (s.modeSet m).visible = s.visible := by
  unfold State.modeSet; split <;> rfl
@[simp] theorem State.modeSet_cursor (m : Mode) : (s.modeSet m).cursor = s.cursor := by
  unfold State.modeSet; split <;> rfl
@[simp] theorem State.modeSet_firstAfterStart (m : Mode) : (s.modeSet m).firstAfterStart = s.firstAfterStart := by
  unfold State.modeSet; split <;> rfl
@[simp] theorem State.modeSet_tc (m : Mode) : (s.modeSet m).tc = s.tc := by
  unfold State.modeSet; split <;> rfl
@[simp] theorem State.modeSet_tf (m : Mode) : (s.modeSet m).tf = s.tf := by
  unfold State.modeSet; split <;> rfl
@[simp] theorem State.modeSet_lastBg (m : Mode) : (s.modeSet m).lastBg = s.lastBg := by
  unfold State.modeSet; split <;> rfl
@[simp] theorem State.modeSet_csIndex (m : Mode) : (s.modeSet m).csIndex = s.csIndex := by
  unfold State.modeSet; split <;> rfl
@[simp] theorem State.modeSet_bitmaps (m : Mode) : (s.modeSet m).bitmaps = s.bitmaps := by
  unfold State.modeSet; split <;> rfl
@[simp] theorem State.modeSet_imageColour (m : Mode) : (s.modeSet m).imageColour = s.imageColour := by
  unfold State.modeSet; split <;> rfl
@[simp] theorem State.modeSet_bboxes (m : Mode) : (s.modeSet m).bboxes = s.bboxes := by
  unfold State.modeSet; split <;> rfl
@[simp] theorem State.modeSet_sv (m : Mode) : (s.modeSet m).sv = s.sv := by
  unfold State.modeSet; split <;> rfl
@[simp] theorem State.modeSet_sp (m : Mode) : (s.modeSet m).sp = s.sp := by
  unfold State.modeSet; split <;> rfl
@[simp] theorem State.modeSet_sc (m : Mode) : (s.modeSet m).sc = s.sc := by
  unfold State.modeSet; split <;> rfl
@[simp] theorem State.modeSet_df (m : Mode) : (s.modeSet m).df = s.df := by
  unfold State.modeSet; split <;> rfl
@[simp] theorem State.modeSet_surface (m : Mode) : (s.modeSet m).surface = s.surface := by
  unfold State.modeSet; split <;> rfl
@[simp] theorem State.modeSet_draws (m : Mode) : (s.modeSet m).draws = s.draws := by
  unfold State.modeSet; split <;> rfl
@[simp] theorem State.modeSet_lastTime (m : Mode) : (s.modeSet m).lastTime = s.lastTime := by
  unfold State.modeSet; split <;> rfl
@[simp] theorem State.modeSet_lastPhase (m : Mode) : (s.modeSet m).lastPhase = s.lastPhase := by
  unfold State.modeSet; split <;> rfl
@[simp] theorem State.modeSet_inbox (m : Mode) : (s.modeSet m).inbox = s.inbox := by
  unfold State.modeSet; split <;> rfl
@[simp] theorem State.modeSet_out (m : Mode) : (s.modeSet m).out = s.out := by
  unfold State.modeSet; split <;> rfl

/-! `shapeWrite` -/

@[simp] theorem State.shapeWrite_cfg (a v : Word) : (s.shapeWrite a v).cfg = s.cfg := by
  unfold State.shapeWrite; split
  · rfl
  · split <;> rfl
@[simp] theorem State.shapeWrite_regs (a v : Word) : (s.shapeWrite a v).regs = s.regs := by
  unfold State.shapeWrite; split
  · rfl
  · split <;> rfl
@[simp] theorem State.shapeWrite_mode (a v : Word) : (s.shapeWrite a v).mode = s.mode := by
  unfold State.shapeWrite; split
  · rfl
  · split <;> rfl
@[simp] theorem State.shapeWrite_regDirty (a v : Word) : (s.shapeWrite a v).regDirty = s.regDirty := by
  unfold State.shapeWrite; split
  · rfl
  · split <;> rfl
@[simp] theorem State.shapeWrite_tileDirty (a v : Word) : (s.shapeWrite a v).tileDirty = s.tileDirty := by
  unfold State.shapeWrite; split
  · rfl
  · split <;> rfl
@[simp] theorem State.shapeWrite_pendingEnable (a v : Word) : (s.shapeWrite a v).pendingEnable = s.pendingEnable := by
  unfold State.shapeWrite; split
  · rfl
  · split <;> rfl
@[simp] theorem State.shapeWrite_liveEnable (a v : Word) : (s.shapeWrite a v).liveEnable = s.liveEnable := by
  unfold State.shapeWrite; split
  · rfl
  · split <;> rfl
@[simp] theorem State.shapeWrite_regDeadline (a v : Word) : (s.shapeWrite a v).regDeadline = s.regDeadline := by
  unfold State.shapeWrite; split
  · rfl
  · split <;> rfl
@[simp] theorem State.shapeWrite_memDeadline (a v : Word) : (s.shapeWrite a v).memDeadline = s.memDeadline := by
  unfold State.shapeWrite; split
  · rfl
  · split <;> rfl
@[simp] theorem State.shapeWrite_isoEnd (a v : Word) : (s.shapeWrite a v).isoEnd = s.isoEnd := by
  unfold State.shapeWrite; split
  · rfl
  · split <;> rfl
@[simp] theorem State.shapeWrite_staging (a v : Word) : (s.shapeWrite a v).staging = s.staging := by
  unfold State.shapeWrite; split
  · rfl
  · split <;> rfl
@[simp] theorem State.shapeWrite_visible (a v : Word) : (s.shapeWrite a v).visible = s.visible := by
  unfold State.shapeWrite; split
  · rfl
  · split <;> rfl
@[simp] theorem State.shapeWrite_cursor (a v : Word) : (s.shapeWrite a v).cursor = s.cursor := by
  unfold State.shapeWrite; split
  · rfl
  · split <;> rfl
@[simp] theorem State.shapeWrite_firstAfterStart (a v : Word) : (s.shapeWrite a v).firstAfterStart = s.firstAfterStart := by
  unfold State.shapeWrite; split
  · rfl
  · split <;> rfl
@[simp] theorem State.shapeWrite_tc (a v : Word) : (s.shapeWrite a v).tc = s.tc := by
  unfold State.shapeWrite; split
  · rfl
  · split <;> rfl
@[simp] theorem State.shapeWrite_tf (a v : Word) : (s.shapeWrite a v).tf = s.tf := by
  unfold State.shapeWrite; split
  · rfl
  · split <;> rfl
@[simp] theorem State.shapeWrite_lastBg (a v : Word) : (s.shapeWrite a v).lastBg = s.lastBg := by
  unfold State.shapeWrite; split
  · rfl
  · split <;> rfl
@[simp] theorem State.shapeWrite_csIndex (a v : Word) : (s.shapeWrite a v).csIndex = s.csIndex := by
  unfold State.shapeWrite; split
  · rfl
  · split <;> rfl
@[simp] theorem State.shapeWrite_bitmaps (a v : Word) : (s.shapeWrite a v).bitmaps = s.bitmaps := by
  unfold State.shapeWrite; split
  · rfl
  · split <;> rfl
@[simp] theorem State.shapeWrite_imageColour (a v : Word) : (s.shapeWrite a v).imageColour = s.imageColour := by
  unfold State.shapeWrite; split
  · rfl
  · split <;> rfl
@[simp] theorem State.shapeWrite_bboxes (a v : Word) : (s.shapeWrite a v).bboxes = s.bboxes := by
  unfold State.shapeWrite; split
  · rfl
  · split <;> rfl
@[simp] theorem State.shapeWrite_sv (a v : Word) : (s.shapeWrite a v).sv = s.sv := by
  unfold State.shapeWrite; split
  · rfl
  · split <;> rfl
@[simp] theorem State.shapeWrite_sp (a v : Word) : (s.shapeWrite a v).sp = s.sp := by
  unfold State.shapeWrite; split
  · rfl
  · split <;> rfl
@[simp] theorem State.shapeWrite_sc (a v : Word) : (s.shapeWrite a v).sc = s.sc := by
  unfold State.shapeWrite; split
  · rfl
  · split <;> rfl
@[simp] theorem State.shapeWrite_df (a v : Word) : (s.shapeWrite a v).df = s.df := by
  unfold State.shapeWrite; split
  · rfl
  · split <;> rfl
@[simp] theorem State.shapeWrite_surface (a v : Word) : (s.shapeWrite a v).surface = s.surface := by
  unfold State.shapeWrite; split
  · rfl
  · split <;> rfl
@[simp] theorem State.shapeWrite_draws (a v : Word) : (s.shapeWrite a v).draws = s.draws := by
  unfold State.shapeWrite; split
  · rfl
  · split <;> rfl
@[simp] theorem State.shapeWrite_lastTime (a v : Word) : (s.shapeWrite a v).lastTime = s.lastTime := by
  unfold State.shapeWrite; split
  · rfl
  · split <;> rfl
@[simp] theorem State.shapeWrite_lastPhase (a v : Word) : (s.shapeWrite a v).lastPhase = s.lastPhase := by
  unfold State.shapeWrite; split
  · rfl
  · split <;> rfl
@[simp] theorem State.shapeWrite_inbox (a v : Word) : (s.shapeWrite a v).inbox = s.inbox := by
  unfold State.shapeWrite; split
  · rfl
  · split <;> rfl
@[simp] theorem State.shapeWrite_out (a v : Word) : (s.shapeWrite a v).out = s.out := by
  unfold State.shapeWrite; split
  · rfl
  · split <;> rfl

/-! `requestBus` -/

@[simp] theorem State.requestBus_cfg (k : BusRequest) : (s.requestBus k).cfg = s.cfg := by
  unfold State.requestBus; split <;> rfl
@[simp] theorem State.requestBus_regs (k : BusRequest) : (s.requestBus k).regs = s.regs := by
  unfold State.requestBus; split <;> rfl
@[simp] theorem State.requestBus_mode (k : BusRequest) : (s.requestBus k).mode = s.mode := by
  unfold State.requestBus; split <;> rfl
@[simp] theorem State.requestBus_regDirty (k : BusRequest) : (s.requestBus k).regDirty = s.regDirty := by
  unfold State.requestBus; split <;> rfl
@[simp] theorem State.requestBus_shapeDirty (k : BusRequest) : (s.requestBus k).shapeDirty = s.shapeDirty := by
  unfold State.requestBus; split <;> rfl
@[simp] theorem State.requestBus_tileDirty (k : BusRequest) : (s.requestBus k).tileDirty = s.tileDirty := by
  unfold State.requestBus; split <;> rfl
@[simp] theorem State.requestBus_pendingEnable (k : BusRequest) : (s.requestBus k).pendingEnable = s.pendingEnable := by
  unfold State.requestBus; split <;> rfl
@[simp] theorem State.requestBus_liveEnable (k : BusRequest) : (s.requestBus k).liveEnable = s.liveEnable := by
  unfold State.requestBus; split <;> rfl
@[simp] theorem State.requestBus_regDeadline (k : BusRequest) : (s.requestBus k).regDeadline = s.regDeadline := by
  unfold State.requestBus; split <;> rfl
@[simp] theorem State.requestBus_memDeadline (k : BusRequest) : (s.requestBus k).memDeadline = s.memDeadline := by
  unfold State.requestBus; split <;> rfl
@[simp] theorem State.requestBus_isoEnd (k : BusRequest) : (s.requestBus k).isoEnd = s.isoEnd := by
  unfold State.requestBus; split <;> rfl
@[simp] theorem State.requestBus_mem (k : BusRequest) : (s.requestBus k).mem = s.mem := by
  unfold State.requestBus; split <;> rfl
@[simp] theorem State.requestBus_staging (k : BusRequest) : (s.requestBus k).staging = s.staging := by
  unfold State.requestBus; split <;> rfl
@[simp] theorem State.requestBus_visible (k : BusRequest) : (s.requestBus k).visible = s.visible := by
  unfold State.requestBus; split <;> rfl
@[simp] theorem State.requestBus_cursor (k : BusRequest) : (s.requestBus k).cursor = s.cursor := by
  unfold State.requestBus; split <;> rfl
@[simp] theorem State.requestBus_firstAfterStart (k : BusRequest) : (s.requestBus k).firstAfterStart = s.firstAfterStart := by
  unfold State.requestBus; split <;> rfl
@[simp] theorem State.requestBus_tc (k : BusRequest) : (s.requestBus k).tc = s.tc := by
  unfold State.requestBus; split <;> rfl
@[simp] theorem State.requestBus_tf (k : BusRequest) : (s.requestBus k).tf = s.tf := by
  unfold State.requestBus; split <;> rfl
@[simp] theorem State.requestBus_lastBg (k : BusRequest) : (s.requestBus k).lastBg = s.lastBg := by
  unfold State.requestBus; split <;> rfl
@[simp] theorem State.requestBus_csIndex (k : BusRequest) : (s.requestBus k).csIndex = s.csIndex := by
  unfold State.requestBus; split <;> rfl
@[simp] theorem State.requestBus_bitmaps (k : BusRequest) : (s.requestBus k).bitmaps = s.bitmaps := by
  unfold State.requestBus; split <;> rfl
@[simp] theorem State.requestBus_imageColour (k : BusRequest) : (s.requestBus k).imageColour = s.imageColour := by
  unfold State.requestBus; split <;> rfl
@[simp] theorem State.requestBus_bboxes (k : BusRequest) : (s.requestBus k).bboxes = s.bboxes := by
  unfold State.requestBus; split <;> rfl
@[simp] theorem State.requestBus_sv (k : BusRequest) : (s.requestBus k).sv = s.sv := by
  unfold State.requestBus; split <;> rfl
@[simp] theorem State.requestBus_sp (k : BusRequest) : (s.requestBus k).sp = s.sp := by
  unfold State.requestBus; split <;> rfl
@[simp] theorem State.requestBus_sc (k : BusRequest) : (s.requestBus k).sc = s.sc := by
  unfold State.requestBus; split <;> rfl
@[simp] theorem State.requestBus_df (k : BusRequest) : (s.requestBus k).df = s.df := by
  unfold State.requestBus; split <;> rfl
@[simp] theorem State.requestBus_surface (k : BusRequest) : (s.requestBus k).surface = s.surface := by
  unfold State.requestBus; split <;> rfl
@[simp] theorem State.requestBus_draws (k : BusRequest) : (s.requestBus k).draws = s.draws := by
  unfold State.requestBus; split <;> rfl
@[simp] theorem State.requestBus_lastTime (k : BusRequest) : (s.requestBus k).lastTime = s.lastTime := by
  unfold State.requestBus; split <;> rfl
@[simp] theorem State.requestBus_lastPhase (k : BusRequest) : (s.requestBus k).lastPhase = s.lastPhase := by
  unfold State.requestBus; split <;> rfl
@[simp] theorem State.requestBus_inbox (k : BusRequest) : (s.requestBus k).inbox = s.inbox := by
  unfold State.requestBus; split <;> rfl
@[simp] theorem State.requestBus_out (k : BusRequest) : (s.requestBus k).out = (if s.liveEnable then s.out ++ [.busRequest k] else s.out) := by
  unfold State.requestBus; split <;> rfl

end Sys2Proof.Machine
end

