-- ==== Sys2Proof/Laws/Ops.lean ====
section
/-! SUPPORT. What each shared operation can do, said once. -/

namespace Sys2Proof.Machine

variable (s : State)

/-! The register file. -/

theorem State.reg_congr {s u : State} (h : u.regs = s.regs) (a : RegAddr) : u.reg a = s.reg a := by simp [State.reg, h]

theorem State.masked_congr {s u : State} (h : u.cfg = s.cfg) (a : RegAddr) (v : Word) : u.masked a v = s.masked a v := by
  simp [State.masked, State.andMask, State.orMask, h]

/-- Masking a masked word changes nothing (10_state R20). -/
theorem State.masked_masked (a : RegAddr) (v : Word) : s.masked a (s.masked a v) = s.masked a v := by
  simp only [State.masked]
  ext i hi
  simp only [BitVec.getElem_or, BitVec.getElem_and]
  cases v[i] <;> cases (s.andMask a)[i] <;> cases (s.orMask a)[i] <;> rfl

/-- `Store` writes the masked word to its register and to no other (40_register_access R102). -/
theorem State.store_reg (a : RegAddr) (v : Word) (b : RegAddr) :
    (s.store a v).reg b = if b = a then s.masked a v else s.reg b := by
  unfold State.store
  split
  · next h => by_cases hb : b = a <;> simp [hb, h]
  · simp [State.reg, entry_set, BitVec.toNat_inj]

/-- A changed word sets `reg_dirty` (40_register_access R102). -/
theorem State.store_regDirty (a : RegAddr) (v : Word) :
    (s.store a v).regDirty = (s.regDirty || s.storeChanges a v) := by
  unfold State.store State.storeChanges
  split <;> simp_all

/-- A changed mode sets `tile_dirty` (40_register_access R121). -/
theorem State.modeSet_tileDirty (m : Mode) : (s.modeSet m).tileDirty = (s.tileDirty || (s.mode != m)) := by
  unfold State.modeSet
  split <;> simp_all

/-- The four write rules all store the masked word (40_register_access R109 to R112). -/
theorem State.writeSelected_reg (a : RegAddr) (v : Word) (b : RegAddr) :
    (s.writeSelected a v).reg b = if b = a then s.masked a v else s.reg b := by
  unfold State.writeSelected State.writeDe State.writeMode State.writeBorder
  split
  · next h => rw [State.store_reg, State.masked_congr (s := s) (by simp), State.reg_congr (s := s) (by simp), h]
  · split
    · next h => rw [State.store_reg, State.masked_congr (s := s) (by simp), State.reg_congr (s := s) (by simp), h]
    · split
      · next h =>
        subst h
        split
        · rw [State.reg_congr (s := s.store 0x2C v) (by simp), State.store_reg]
        · next hc =>
          have : s.masked 0x2C v = s.reg 0x2C := by simpa [State.storeChanges] using hc
          by_cases hb : b = 0x2C
          · rw [if_pos hb, hb, this]
          · rw [if_neg hb]
      · exact State.store_reg s a v b

/-- What a selected write can change: the registers, `reg_dirty`, the pending enable, the mode, `tile_dirty` and the outputs. -/
theorem State.writeSelected_frame (a : RegAddr) (v : Word) :
    s.writeSelected a v = { s with
      regs := (s.writeSelected a v).regs
      regDirty := (s.writeSelected a v).regDirty
      pendingEnable := (s.writeSelected a v).pendingEnable
      mode := (s.writeSelected a v).mode
      tileDirty := (s.writeSelected a v).tileDirty
      out := (s.writeSelected a v).out } := by
  unfold State.writeSelected State.writeDe State.writeMode State.writeBorder State.setPending State.modeSet State.store State.emit
  repeat' split
  all_goals rfl

/-- A selected write sets the pending enable exactly at 0x20 (40_register_access R110). -/
theorem State.writeSelected_pendingEnable (a : RegAddr) (v : Word) :
    (s.writeSelected a v).pendingEnable = (s.pendingEnable || a == 0x20) := by
  unfold State.writeSelected State.writeDe State.writeMode State.writeBorder
  split
  · simp_all
  · split
    · simp_all
    · split
      · split <;> simp_all
      · simp_all

/-- A selected write selects Foreground/Background exactly at 0x21 (40_register_access R111). -/
theorem State.writeSelected_mode (a : RegAddr) (v : Word) :
    (s.writeSelected a v).mode = if a = 0x21 then .fgbg else s.mode := by
  unfold State.writeSelected State.writeDe State.writeMode State.writeBorder
  split
  · simp_all
  · split
    · simp_all
    · split
      · split <;> simp_all
      · simp_all

/-- A selected write changes no parameter. -/
@[simp] theorem State.writeSelected_cfg (a : RegAddr) (v : Word) : (s.writeSelected a v).cfg = s.cfg := by
  rw [State.writeSelected_frame]

@[simp] theorem State.writeSelected_mem (a : RegAddr) (v : Word) : (s.writeSelected a v).mem = s.mem := by
  rw [State.writeSelected_frame]

@[simp] theorem State.writeSelected_cursor (a : RegAddr) (v : Word) : (s.writeSelected a v).cursor = s.cursor := by
  rw [State.writeSelected_frame]

@[simp] theorem State.writeSelected_visible (a : RegAddr) (v : Word) : (s.writeSelected a v).visible = s.visible := by
  rw [State.writeSelected_frame]

@[simp] theorem State.writeSelected_staging (a : RegAddr) (v : Word) : (s.writeSelected a v).staging = s.staging := by
  rw [State.writeSelected_frame]

/-- A write above the registers either does nothing or is a selected write (40_register_access R113). -/
theorem State.writeHigh_cases (a v : Word) :
    s.writeHigh a v = s ∨ (s.cfg.highWrite = .lowRegister ∧ s.writeHigh a v = s.writeSelected (a.setWidth 6) v) := by
  unfold State.writeHigh
  split
  · exact .inl rfl
  · next h => exact .inr ⟨h, rfl⟩

/-! Shape memory. -/

/-- A shape write stores the low byte of its data in the RAM cell it reaches, and nothing else (41_shape_memory R142). -/
theorem State.shapeWrite_shapeValue (hs : Memory.wf s.mem = true) (a v : Word) (i : ShapeIndex) :
    (s.shapeWrite a v).shapeValue i =
      if 0x800 ≤ (shapeIndex a).toNat ∧ shapeCell i = shapeCell (shapeIndex a) then v.setWidth 8 else s.shapeValue i := by
  unfold State.shapeWrite
  split
  · next h => rw [if_neg]; omega
  · next h =>
    have h8 : 0x800 ≤ (shapeIndex a).toNat := by omega
    split
    · next heq =>
      by_cases hc : shapeCell i = shapeCell (shapeIndex a)
      · rw [if_pos ⟨h8, hc⟩, ← heq, State.shapeValue, State.shapeValue, hc]
      · rw [if_neg (fun hh => hc hh.2)]
    · by_cases hc : shapeCell i = shapeCell (shapeIndex a)
      · rw [if_pos ⟨h8, hc⟩, State.shapeValue, hc, Memory.read_write_same hs]
      · rw [if_neg (fun hh => hc hh.2), State.shapeValue, State.shapeValue, Memory.read_write_other _ hc]

/-- A shape write keeps the canonical form. -/
theorem State.shapeWrite_wf (hs : Memory.wf s.mem = true) (a v : Word) : Memory.wf (s.shapeWrite a v).mem = true := by
  unfold State.shapeWrite
  split
  · exact hs
  · split
    · exact hs
    · exact Memory.write_wf hs (shapeCell_lt _) _

/-- A changed RAM byte sets `shape_dirty` (41_shape_memory R142). -/
theorem State.shapeWrite_shapeDirty (a v : Word) :
    (s.shapeWrite a v).shapeDirty =
      (s.shapeDirty || (decide (0x800 ≤ (shapeIndex a).toNat) && (s.shapeValue (shapeIndex a) != v.setWidth 8))) := by
  unfold State.shapeWrite
  split
  · next h =>
    have : ¬ 0x800 ≤ (shapeIndex a).toNat := by omega
    simp [this]
  · next h =>
    have : 0x800 ≤ (shapeIndex a).toNat := by omega
    split <;> simp_all

/-! The capture. -/

/-- A row copy writes the 20 entries of its row and no others (42_tile_capture R172). -/
theorem entry_copyRow (staging visible : Vector Word 240) (cursor row k : Nat) (hk : k < 240) :
    entry (copyRow staging visible cursor row) k =
      if k / 20 = row then entry staging (cursor + k % 20) else entry visible k := by
  simp [copyRow, hk]

end Sys2Proof.Machine
end

