-- ==== Sys2Proof/Laws/PerInstr.lean ====
section
/-! SUPPORT. Statements about every operation as syntax, one lemma per operation. -/

namespace Sys2Proof.Laws

/-- A word matches the row that fixes KIND and WIN only (30_encoding R83). -/
theorem wordOf_and_fields (k : Kind) (w : Win) (a : Word) : wordOf k w a &&& 0xF0000 = wordOf k w 0 := by
  have h : (0xF0000 : BitVec 20) = ((0xF : BitVec 4) ++ (0 : BitVec 16) : BitVec (4 + 16)) := by decide
  rw [wordOf, wordOf, h]
  refine (BitVec.and_append).trans ?_
  rw [show kindBits k ++ winBits w &&& (0xF : BitVec 4) = kindBits k ++ winBits w by cases k <;> cases w <;> decide]
  simp

/-- The word the encoder writes for `i` matches the mask and the match of its row in the table (30_encoding R83). -/
def EncodeRow.Statement (i : Instr) : Prop :=
  ∃ r ∈ opcodeTable, r.mnemonic = mnemonic i ∧ (encode i).word &&& r.mask = r.pattern

/-- The row of an operation and the match of its word give the statement. -/
theorem encodeRow_of_row (i : Instr) (mask pattern : BitVec 20) (hr : ⟨mnemonic i, mask, pattern⟩ ∈ opcodeTable)
    (hw : (encode i).word &&& mask = pattern) : EncodeRow.Statement i :=
  ⟨_, hr, rfl, hw⟩

theorem EncodeRow.rdRMode (t : Nat) : EncodeRow.Statement (.rdRMode t) :=
  encodeRow_of_row _ 0xFFFFF 0x00021 (by simp [mnemonic, opcodeTable]) (by simp only [encode, bareTxn]; decide)

theorem EncodeRow.rdRReg (a : RegAddr) (t : Nat) : EncodeRow.Statement (.rdRReg a t) :=
  encodeRow_of_row _ 0xFFFC0 0x00000 (by simp [mnemonic, opcodeTable])
    ((by decide : ∀ b : RegAddr, wordOf .read .reg (b.setWidth 16) &&& 0xFFFC0 = 0x00000) a)

theorem EncodeRow.rdRShape (a : BitVec 14) (t : Nat) : EncodeRow.Statement (.rdRShape a t) :=
  encodeRow_of_row _ 0xFC000 0x00000 (by simp [mnemonic, opcodeTable]) (by
    have hw : (encode (.rdRShape a t)).word = a.setWidth 20 := by
      simp only [encode, bareTxn, wordOf]
      ext n hn
      rw [BitVec.getElem_append]
      split
      · simp
      · simp [kindBits, winBits, show 14 ≤ n by omega]
    rw [hw]
    ext n hn
    interval_cases n <;> simp)

theorem EncodeRow.rdRAlias (a : Word) (t : Nat) : EncodeRow.Statement (.rdRAlias a t) :=
  encodeRow_of_row _ 0xF0000 0x00000 (by simp [mnemonic, opcodeTable]) ((wordOf_and_fields .read .reg a).trans (by decide))

theorem EncodeRow.wrRDe (v : Word) (t : Nat) : EncodeRow.Statement (.wrRDe v t) :=
  encodeRow_of_row _ 0xFFFFF 0x40020 (by simp [mnemonic, opcodeTable]) (by simp only [encode, bareTxn]; decide)

theorem EncodeRow.wrRMode (v : Word) (t : Nat) : EncodeRow.Statement (.wrRMode v t) :=
  encodeRow_of_row _ 0xFFFFF 0x40021 (by simp [mnemonic, opcodeTable]) (by simp only [encode, bareTxn]; decide)

theorem EncodeRow.wrRBorder (v : Word) (t : Nat) : EncodeRow.Statement (.wrRBorder v t) :=
  encodeRow_of_row _ 0xFFFFF 0x4002C (by simp [mnemonic, opcodeTable]) (by simp only [encode, bareTxn]; decide)

theorem EncodeRow.wrRReg (a : RegAddr) (v : Word) (t : Nat) : EncodeRow.Statement (.wrRReg a v t) :=
  encodeRow_of_row _ 0xFFFC0 0x40000 (by simp [mnemonic, opcodeTable])
    ((by decide : ∀ b : RegAddr, wordOf .write .reg (b.setWidth 16) &&& 0xFFFC0 = 0x40000) a)

theorem EncodeRow.wrRHigh (a v : Word) (t : Nat) : EncodeRow.Statement (.wrRHigh a v t) :=
  encodeRow_of_row _ 0xF0000 0x40000 (by simp [mnemonic, opcodeTable]) ((wordOf_and_fields .write .reg a).trans (by decide))

theorem EncodeRow.peekR (a : Word) : EncodeRow.Statement (.peekR a) :=
  encodeRow_of_row _ 0xF0000 0x80000 (by simp [mnemonic, opcodeTable]) ((wordOf_and_fields .peek .reg a).trans (by decide))

theorem EncodeRow.pokeR (a : RegAddr) (v : Word) : EncodeRow.Statement (.pokeR a v) :=
  encodeRow_of_row _ 0xFFFC0 0xC0000 (by simp [mnemonic, opcodeTable])
    ((by decide : ∀ b : RegAddr, wordOf .poke .reg (b.setWidth 16) &&& 0xFFFC0 = 0xC0000) a)

theorem EncodeRow.pokeRHigh (a v : Word) : EncodeRow.Statement (.pokeRHigh a v) :=
  encodeRow_of_row _ 0xF0000 0xC0000 (by simp [mnemonic, opcodeTable]) ((wordOf_and_fields .poke .reg a).trans (by decide))

theorem EncodeRow.rdS (a : Word) (t : Nat) : EncodeRow.Statement (.rdS a t) :=
  encodeRow_of_row _ 0xF0000 0x10000 (by simp [mnemonic, opcodeTable]) ((wordOf_and_fields .read .shape a).trans (by decide))

theorem EncodeRow.wrS (a v : Word) (t : Nat) : EncodeRow.Statement (.wrS a v t) :=
  encodeRow_of_row _ 0xF0000 0x50000 (by simp [mnemonic, opcodeTable]) ((wordOf_and_fields .write .shape a).trans (by decide))

theorem EncodeRow.peekS (a : Word) : EncodeRow.Statement (.peekS a) :=
  encodeRow_of_row _ 0xF0000 0x90000 (by simp [mnemonic, opcodeTable]) ((wordOf_and_fields .peek .shape a).trans (by decide))

theorem EncodeRow.pokeS (a v : Word) : EncodeRow.Statement (.pokeS a v) :=
  encodeRow_of_row _ 0xF0000 0xD0000 (by simp [mnemonic, opcodeTable]) ((wordOf_and_fields .poke .shape a).trans (by decide))

theorem EncodeRow.wrT (k v : Word) (t : Nat) : EncodeRow.Statement (.wrT k v t) :=
  encodeRow_of_row _ 0xF0000 0x60000 (by simp [mnemonic, opcodeTable]) ((wordOf_and_fields .write .tile k).trans (by decide))

theorem EncodeRow.peekT (k : Word) : EncodeRow.Statement (.peekT k) :=
  encodeRow_of_row _ 0xF0000 0xA0000 (by simp [mnemonic, opcodeTable]) ((wordOf_and_fields .peek .tile k).trans (by decide))

theorem EncodeRow.evReset : EncodeRow.Statement .evReset :=
  encodeRow_of_row _ 0xFF000 0x30000 (by simp [mnemonic, opcodeTable]) (by simp only [encode, bareTxn]; decide)

theorem EncodeRow.evRender (drop : Bool) : EncodeRow.Statement (.evRender drop) :=
  encodeRow_of_row _ 0xFF000 0x31000 (by simp [mnemonic, opcodeTable]) (by cases drop <;> decide)

theorem EncodeRow.evLatch : EncodeRow.Statement .evLatch :=
  encodeRow_of_row _ 0xFF000 0x32000 (by simp [mnemonic, opcodeTable]) (by simp only [encode, bareTxn]; decide)

theorem EncodeRow.evCapstart : EncodeRow.Statement .evCapstart :=
  encodeRow_of_row _ 0xFF000 0x33000 (by simp [mnemonic, opcodeTable]) (by simp only [encode, bareTxn]; decide)

theorem EncodeRow.evCaprow (p : BitVec 4) (ack : Bool) : EncodeRow.Statement (.evCaprow p ack) :=
  encodeRow_of_row _ 0xFF000 0x34000 (by simp [mnemonic, opcodeTable]) (by revert p; cases ack <;> decide)

theorem EncodeRow.evDeadline (target : Gate) (vk : ValueKind) (tv : Nat) : EncodeRow.Statement (.evDeadline target vk tv) :=
  encodeRow_of_row _ 0xFF000 0x35000 (by simp [mnemonic, opcodeTable])
    (by simp only [encode, bareTxn]; cases target <;> cases vk <;> decide)

theorem EncodeRow.evIso (vk : ValueKind) (tv : Nat) : EncodeRow.Statement (.evIso vk tv) :=
  encodeRow_of_row _ 0xFF000 0x36000 (by simp [mnemonic, opcodeTable]) (by simp only [encode, bareTxn]; cases vk <;> decide)

theorem EncodeRow.evColl (j : BitVec 3) (bits : Word) : EncodeRow.Statement (.evColl j bits) :=
  encodeRow_of_row _ 0xFF000 0x37000 (by simp [mnemonic, opcodeTable]) (by simp only [encode, bareTxn]; revert j; decide)

end Sys2Proof.Laws
end

