-- ==== Sys2Proof/Laws/Render.lean ====
section
/-! SUPPORT. The planes each render stage leaves, pixel by pixel. -/

namespace Sys2Proof.Machine

variable (s : State)

/-- `TC` after the tile renderer (44_tile_renderer R211). -/
theorem State.tileRender_tc_get (x y : Nat) (hx : x < 168) (hy : y < 104) :
    s.tileRender.tc.get x y =
      if isSeed x y then s.tc.get x y else pixel (entry (s.drawCard (cardAt x y)) (y % 8)).px (x % 8) := by
  by_cases hs : isSeed x y
  · simp [State.tileRender, hx, hy, hs]
  · have : cardAt x y < 240 := by
      simp only [isSeed, Bool.or_eq_true, decide_eq_true_eq, not_or] at hs
      simp only [cardAt]
      omega
    simp [State.tileRender, hx, hy, hs, this]

/-- `TF` after the tile renderer (44_tile_renderer R211). -/
theorem State.tileRender_tf_get (x y : Nat) (hx : x < 168) (hy : y < 104) :
    s.tileRender.tf.get x y =
      if isSeed x y then s.tf.get x y else (entry (s.drawCard (cardAt x y)) (y % 8)).fg.getLsbD (7 - x % 8) := by
  by_cases hs : isSeed x y
  · simp [State.tileRender, hx, hy, hs]
  · have : cardAt x y < 240 := by
      simp only [isSeed, Bool.or_eq_true, decide_eq_true_eq, not_or] at hs
      simp only [cardAt]
      omega
    simp [State.tileRender, hx, hy, hs, this]

/-- `bitmap[i][q]` after the sprite stage (45_sprite_renderer R253). -/
theorem State.buildSprites_spriteRow (i q : Nat) (hi : i < 8) (hq : q < 16) :
    s.buildSprites.spriteRow i q = s.bitmapRow (s.sprite i) q := by
  simp [State.buildSprites, State.spriteRow, entry_map _ _ hi, hq]

/-- A plane pixel after the compositor (45_sprite_renderer R258, R259). -/
theorem State.composite_get (x y : Nat) (hx : x < 168) (hy : y < 208) :
    (⟨s.composite.sv.get x y, s.composite.sp.get x y, s.composite.sc.get x y⟩ : PlanePixel) =
      s.compositePixel (tab 8 s.sprite) x y := by
  simp [State.composite, hx, hy]

/-- `TF` after the edge fixup (46_edge_merge_unpack R291). -/
theorem State.edgeFixup_tf_get (x y : Nat) (hx : x < 168) (hy : y < 104) :
    s.edgeFixup.tf.get x y = (!decide (167 < x + s.hDelay ∨ 103 < y + s.vDelay) && s.tf.get x y) := by
  simp only [State.edgeFixup, Plane.get_ofFn, if_pos (And.intro hx hy)]
  by_cases h : 167 < x + s.hDelay ∨ 103 < y + s.vDelay
  · rw [if_pos h, decide_eq_true h]; rfl
  · rw [if_neg h, decide_eq_false h]; rfl

/-- `SV` after the edge fixup (46_edge_merge_unpack R292). -/
theorem State.edgeFixup_sv_get (x y : Nat) (hx : x < 168) (hy : y < 208) :
    s.edgeFixup.sv.get x y = (!decide (167 < x + s.hDelay ∨ 207 < y + 2 * s.vDelay) && s.sv.get x y) := by
  simp only [State.edgeFixup, Plane.get_ofFn, if_pos (And.intro hx hy)]
  by_cases h : 167 < x + s.hDelay ∨ 207 < y + 2 * s.vDelay
  · rw [if_pos h, decide_eq_true h]; rfl
  · rw [if_neg h, decide_eq_false h]; rfl

/-- Outside the seed cells the seeding leaves the tile planes alone (46_edge_merge_unpack R301). -/
theorem State.seedCells_get (x y : Nat) (hx : x < 168) (hy : y < 104) (h : isSeed x y = false) :
    s.seedCells.tc.get x y = s.tc.get x y ∧ s.seedCells.tf.get x y = s.tf.get x y := by
  simp [State.seedCells, hx, hy, h]

/-- `DF` after the merge, the delays and the border (46_edge_merge_unpack R304). -/
theorem State.mergeFrame_df_get (x y : Nat) (hx : x < 176) (hy : y < 224) :
    s.mergeFrame.df.get x y = s.displayPixel x y := by
  simp [State.mergeFrame, hx, hy]

/-- A display-field pixel unpacked from its packed word (46_edge_merge_unpack R305). -/
theorem unpackedPixel_eq (df : Plane Colour 176 224) (x y : Nat) : unpackedPixel df x y = (df.get x y).setWidth 8 := by
  have hk : x % 8 < 8 := Nat.mod_lt _ (by decide)
  rw [unpackedPixel, getD_unpackWord _ hk, dfWord, pixel_packPixels _ hk]
  congr 3
  omega

end Sys2Proof.Machine
end

