-- ==== Sys2Proof/Laws/Step.lean ====
section
/-! SUPPORT. What a step can do, said once. -/

namespace Sys2Proof.Machine

/-- An operation without a timestamp is always on time (60_exceptions R348). -/
theorem State.timely_of_none (s : State) {i : Instr} (h : hostTime i = none) : s.timely i = true := by
  simp [State.timely, State.timeAfter, h]

/-- An operation without a timestamp leaves the greatest timestamp. -/
theorem State.timeAfter_of_none (s : State) {i : Instr} (h : hostTime i = none) : s.timeAfter i = s.lastTime := by
  simp [State.timeAfter, h]

/-- A host access becomes the latest one. -/
theorem State.timeAfter_of_some (s : State) {i : Instr} {t : Nat} (h : hostTime i = some t) : s.timeAfter i = t := by
  simp [State.timeAfter, h]

/-- A host access is on time when no later one has been delivered (00_scope R12). -/
theorem State.timely_of_some (s : State) {i : Instr} {t : Nat} (h : hostTime i = some t) :
    s.timely i = true ↔ s.lastTime ≤ t := by
  simp [State.timely, State.timeAfter, h]

/-- An operation that is no sequencer event keeps the order (30_encoding R84). -/
theorem State.inOrder_of_none (s : State) {i : Instr} (h : eventPhase i = none) : s.inOrder i = true := by
  unfold State.inOrder
  cases hp : s.lastPhase <;> simp [h]

/-- The first event since a reset may be any. -/
theorem State.inOrder_of_fresh (s : State) (i : Instr) (h : s.lastPhase = none) : s.inOrder i = true := by
  simp [State.inOrder, h]

/-- An operation that is neither a sequencer event nor a reset leaves the phase. -/
theorem State.phaseAfter_of_none (s : State) {i : Instr} (h : eventPhase i = none) (hr : i ≠ .evReset) :
    s.phaseAfter i = s.lastPhase := by
  simp [State.phaseAfter, h, hr]

/-- An operation out of order never completes. -/
theorem refuseUnlessFault_ne_next (r : Result) (t : State) : refuseUnlessFault r ≠ .next t := by
  cases r <;> simp [refuseUnlessFault]

/-! `taken` -/

@[simp] theorem State.taken_cfg (s : State) (rest : List Txn) (i : Instr) : (s.taken rest i).cfg = s.cfg := rfl
@[simp] theorem State.taken_regs (s : State) (rest : List Txn) (i : Instr) : (s.taken rest i).regs = s.regs := rfl
@[simp] theorem State.taken_mode (s : State) (rest : List Txn) (i : Instr) : (s.taken rest i).mode = s.mode := rfl
@[simp] theorem State.taken_regDirty (s : State) (rest : List Txn) (i : Instr) : (s.taken rest i).regDirty = s.regDirty := rfl
@[simp] theorem State.taken_shapeDirty (s : State) (rest : List Txn) (i : Instr) : (s.taken rest i).shapeDirty = s.shapeDirty := rfl
@[simp] theorem State.taken_tileDirty (s : State) (rest : List Txn) (i : Instr) : (s.taken rest i).tileDirty = s.tileDirty := rfl
@[simp] theorem State.taken_pendingEnable (s : State) (rest : List Txn) (i : Instr) : (s.taken rest i).pendingEnable = s.pendingEnable := rfl
@[simp] theorem State.taken_liveEnable (s : State) (rest : List Txn) (i : Instr) : (s.taken rest i).liveEnable = s.liveEnable := rfl
@[simp] theorem State.taken_regDeadline (s : State) (rest : List Txn) (i : Instr) : (s.taken rest i).regDeadline = s.regDeadline := rfl
@[simp] theorem State.taken_memDeadline (s : State) (rest : List Txn) (i : Instr) : (s.taken rest i).memDeadline = s.memDeadline := rfl
@[simp] theorem State.taken_isoEnd (s : State) (rest : List Txn) (i : Instr) : (s.taken rest i).isoEnd = s.isoEnd := rfl
@[simp] theorem State.taken_mem (s : State) (rest : List Txn) (i : Instr) : (s.taken rest i).mem = s.mem := rfl
@[simp] theorem State.taken_staging (s : State) (rest : List Txn) (i : Instr) : (s.taken rest i).staging = s.staging := rfl
@[simp] theorem State.taken_visible (s : State) (rest : List Txn) (i : Instr) : (s.taken rest i).visible = s.visible := rfl
@[simp] theorem State.taken_cursor (s : State) (rest : List Txn) (i : Instr) : (s.taken rest i).cursor = s.cursor := rfl
@[simp] theorem State.taken_firstAfterStart (s : State) (rest : List Txn) (i : Instr) : (s.taken rest i).firstAfterStart = s.firstAfterStart := rfl
@[simp] theorem State.taken_tc (s : State) (rest : List Txn) (i : Instr) : (s.taken rest i).tc = s.tc := rfl
@[simp] theorem State.taken_tf (s : State) (rest : List Txn) (i : Instr) : (s.taken rest i).tf = s.tf := rfl
@[simp] theorem State.taken_lastBg (s : State) (rest : List Txn) (i : Instr) : (s.taken rest i).lastBg = s.lastBg := rfl
@[simp] theorem State.taken_csIndex (s : State) (rest : List Txn) (i : Instr) : (s.taken rest i).csIndex = s.csIndex := rfl
@[simp] theorem State.taken_bitmaps (s : State) (rest : List Txn) (i : Instr) : (s.taken rest i).bitmaps = s.bitmaps := rfl
@[simp] theorem State.taken_imageColour (s : State) (rest : List Txn) (i : Instr) : (s.taken rest i).imageColour = s.imageColour := rfl
@[simp] theorem State.taken_bboxes (s : State) (rest : List Txn) (i : Instr) : (s.taken rest i).bboxes = s.bboxes := rfl
@[simp] theorem State.taken_sv (s : State) (rest : List Txn) (i : Instr) : (s.taken rest i).sv = s.sv := rfl
@[simp] theorem State.taken_sp (s : State) (rest : List Txn) (i : Instr) : (s.taken rest i).sp = s.sp := rfl
@[simp] theorem State.taken_sc (s : State) (rest : List Txn) (i : Instr) : (s.taken rest i).sc = s.sc := rfl
@[simp] theorem State.taken_df (s : State) (rest : List Txn) (i : Instr) : (s.taken rest i).df = s.df := rfl
@[simp] theorem State.taken_surface (s : State) (rest : List Txn) (i : Instr) : (s.taken rest i).surface = s.surface := rfl
@[simp] theorem State.taken_draws (s : State) (rest : List Txn) (i : Instr) : (s.taken rest i).draws = s.draws := rfl
@[simp] theorem State.taken_out (s : State) (rest : List Txn) (i : Instr) : (s.taken rest i).out = s.out := rfl
@[simp] theorem State.taken_inbox (s : State) (rest : List Txn) (i : Instr) : (s.taken rest i).inbox = rest := rfl
@[simp] theorem State.taken_lastTime (s : State) (rest : List Txn) (i : Instr) : (s.taken rest i).lastTime = s.timeAfter i := rfl
@[simp] theorem State.taken_lastPhase (s : State) (rest : List Txn) (i : Instr) : (s.taken rest i).lastPhase = s.phaseAfter i := rfl

/-- Taking a transaction changes only the inbox, the time and the phase. -/
theorem State.taken_eq (s : State) (rest : List Txn) (i : Instr) :
    s.taken rest i = { s with inbox := rest, lastTime := s.timeAfter i, lastPhase := s.phaseAfter i } := rfl

/-- A step that answers a next state either had nothing to deliver or executed the operation it took, on time and in order. -/
theorem step_next {s t : State} (h : step s = .next t) :
    (s.inbox = [] ∧ t = s) ∨
    ∃ x rest i, s.inbox = x :: rest ∧ decode x = .ok i ∧ s.timely i = true ∧ s.inOrder i = true ∧
      exec i (s.taken rest i) = .next t := by
  unfold step at h
  split at h
  · next hi =>
    cases h
    exact .inl ⟨hi, rfl⟩
  · next x rest hi =>
    split at h
    · cases h
    · next i hd =>
      split at h
      · next ht =>
        split at h
        · next ho => exact .inr ⟨x, rest, i, hi, hd, ht, ho, h⟩
        · exact absurd h (refuseUnlessFault_ne_next _ _)
      · cases h

end Sys2Proof.Machine
end

