-- ==== Sys2Proof/Tests/Slice0.lean ====
section
/-! SUPPORT. The model's own tests: ill-formed terms, the words of 95_test_vectors decoded, one step per operation against the
vectors of 95_test_vectors, and, for each obligation that has hypotheses, a state and operands that meet them. -/

-- The theorems below are kernel evaluations: one at a time keeps the threads and the memory of the compile small.
set_option Elab.async false

namespace Sys2Proof.Tests

open Sys2Proof.Machine

/-! ## Helpers -/

/-- After `EV.RESET`, the gates open from T = 10 to T = 100. -/
def opened : State := { State.reset with regDeadline := .time 100, memDeadline := .time 100, isoEnd := .time 10 }

/-- `opened`, in Color-Stack mode. -/
def openedCs : State := { opened with mode := .cs }

/-- `opened`, video enabled. -/
def live : State := { opened with liveEnable := true }

/-- The transaction word `w` delivered after reset. -/
def delivered (w : BitVec 20) : State := { State.reset with inbox := [⟨w, 0, 0, 0⟩] }

/-- A view of the state an operation leaves, if it completes. -/
def after {α : Type} (r : Result) (view : State → α) : Option α :=
  match r with
  | .next s => some (view s)
  | .fault _ => none
  | .refused _ => none

/-- The fault an operation stops with, if it stops with one. -/
def faultOf (r : Result) : Option Fault :=
  match r with
  | .next _ => none
  | .fault f => some f
  | .refused _ => none

/-- What was handed out last. -/
def last (s : State) : Option Output := s.out.getLast?

/-- A table of words that is `v` at index `k` and 0 elsewhere. -/
def oneHot (k : Nat) (v : Word) : Vector Word 240 := tab 240 fun i => if i = k then v else 0

/-! ## Ill-formed terms (30_encoding R83) -/

theorem test_illformed_rdRReg : WellFormed (.rdRReg 0x21 0) = false := by decide
theorem test_illformed_rdRShape : WellFormed (.rdRShape 0x3F 0) = false := by decide
theorem test_illformed_rdRAlias : WellFormed (.rdRAlias 0x3FFF 0) = false := by decide
theorem test_illformed_wrRReg_de : WellFormed (.wrRReg 0x20 0 0) = false := by decide
theorem test_illformed_wrRReg_mode : WellFormed (.wrRReg 0x21 0 0) = false := by decide
theorem test_illformed_wrRReg_border : WellFormed (.wrRReg 0x2C 0 0) = false := by decide
theorem test_illformed_wrRHigh : WellFormed (.wrRHigh 0x3F 0 0) = false := by decide
theorem test_illformed_pokeRHigh : WellFormed (.pokeRHigh 0x3F 0) = false := by decide

/-! ## Words of 95_test_vectors 2.1, and the bits of 30_encoding R80 and R81 -/

theorem test_decode_rdRMode : decodeTableWord 24 0b0000_0000000000100001 = some (.rdRMode 0) := by decide
theorem test_decode_rdRReg : decodeTableWord 24 0b0000_0000000000111111 = some (.rdRReg 0x3F 0) := by decide
theorem test_decode_rdRShape : decodeTableWord 24 0b0000_0000000001000000 = some (.rdRShape 0x40 0) := by decide
theorem test_decode_rdRShape_top : decodeTableWord 24 0b0000_0011111111111111 = some (.rdRShape 0x3FFF 0) := by decide
theorem test_decode_rdRAlias : decodeTableWord 24 0b0000_0100000000000000 = some (.rdRAlias 0x4000 0) := by decide
theorem test_decode_wrRDe : decodeTableWord 24 0b0100_0000000000100000 = some (.wrRDe 0 0) := by decide
theorem test_decode_wrRMode : decodeTableWord 24 0b0100_0000000000100001 = some (.wrRMode 0 0) := by decide
theorem test_decode_wrRBorder : decodeTableWord 24 0b0100_0000000000101100 = some (.wrRBorder 0 0) := by decide
theorem test_decode_wrRReg : decodeTableWord 24 0b0100_0000000000101011 = some (.wrRReg 0x2B 0 0) := by decide
theorem test_decode_wrRHigh : decodeTableWord 24 0b0100_0000000001000000 = some (.wrRHigh 0x40 0 0) := by decide
theorem test_decode_peekR : decodeTableWord 24 0b1000_0000000000100001 = some (.peekR 0x21) := by decide
theorem test_decode_pokeR : decodeTableWord 24 0b1100_0000000000100001 = some (.pokeR 0x21 0) := by decide
theorem test_decode_pokeRHigh : decodeTableWord 24 0b1100_0100000000100000 = some (.pokeRHigh 0x4020 0) := by decide
theorem test_decode_rdS : decodeTableWord 24 0b0001_0000100000000101 = some (.rdS 0x0805 0) := by decide
theorem test_decode_wrS : decodeTableWord 24 0b0101_0000100000000101 = some (.wrS 0x0805 0 0) := by decide
theorem test_decode_peekS : decodeTableWord 24 0b1001_0000000000000000 = some (.peekS 0) := by decide
theorem test_decode_pokeS : decodeTableWord 24 0b1101_0000100000000000 = some (.pokeS 0x0800 0) := by decide
theorem test_decode_wrT : decodeTableWord 24 0b0110_0000000000010101 = some (.wrT 21 0 0) := by decide
theorem test_decode_peekT : decodeTableWord 24 0b1010_0000000000010101 = some (.peekT 21) := by decide
theorem test_decode_evReset : decodeTableWord 24 0b0011_0000000000000000 = some .evReset := by decide
theorem test_decode_evReset_ignored : decodeTableWord 24 0b0011_0000111111111111 = some .evReset := by decide
theorem test_decode_evRender : decodeTableWord 24 0b0011_0001000000000000 = some (.evRender false) := by decide
theorem test_decode_evRender_drop : decodeTableWord 24 0b0011_0001000000000001 = some (.evRender true) := by decide
theorem test_decode_evLatch : decodeTableWord 24 0b0011_0010000000000000 = some .evLatch := by decide
theorem test_decode_evCapstart : decodeTableWord 24 0b0011_0011000000000000 = some .evCapstart := by decide
theorem test_decode_evCaprow : decodeTableWord 24 0b0011_0100000100000011 = some (.evCaprow 3 true) := by decide
theorem test_decode_evCaprow_noack : decodeTableWord 24 0b0011_0100000000001110 = some (.evCaprow 14 false) := by decide
theorem test_decode_evDeadline : decodeTableWord 24 0b0011_0101000000000011 = some (.evDeadline .mem .inf 0) := by decide
theorem test_decode_evDeadline_closed : decodeTableWord 24 0b0011_0101000000000100 = some (.evDeadline .reg .closed 0) := by
  decide
theorem test_decode_evIso : decodeTableWord 24 0b0011_0110000000000010 = some (.evIso .inf 0) := by decide
theorem test_decode_evColl : decodeTableWord 24 0b0011_0111000000000011 = some (.evColl 3 0) := by decide

theorem test_reserved_tile_read : decode ⟨0x20005, 0, 0, 0⟩ = .error .tileRead := rfl
theorem test_reserved_tile_poke : decode ⟨0xE0000, 0, 0, 0⟩ = .error .tilePoke := rfl
theorem test_reserved_event_kind : decode ⟨0x70000, 0, 0, 0⟩ = .error .eventKind := rfl
theorem test_reserved_event_code : decode ⟨0x38000, 0, 0, 0⟩ = .error (.eventCode 8) := rfl
theorem test_reserved_value_kind : decode ⟨0x36006, 0, 0, 0⟩ = .error .valueKind := rfl
theorem test_reserved_wide_word : decodeTableWord 24 0x100000 = none := by decide

/-! ## One step per operation -/

theorem test_rdRMode : after (exec (.rdRMode 100) opened) (fun s => (s.mode, s.tileDirty, last s)) =
    some (.cs, true, some (.value 0x3FFF)) := by decide +kernel
theorem test_rdRMode_late : after (exec (.rdRMode 101) opened) (fun s => (s.mode, last s)) =
    some (.fgbg, some (.value 0xFFFF)) := by decide +kernel
theorem test_rdRReg : after (exec (.rdRReg 0x22 10) opened) last = some (some (.value 0x3FFF)) := by decide +kernel
theorem test_rdRShape : after (exec (.rdRShape 0x1805 10) { opened with mem := [(0x805, 0x34)] }) last =
    some (some (.value 0x0034)) := by decide +kernel
theorem test_rdRAlias : after (exec (.rdRAlias 0x4021 10) opened) (fun s => (s.mode, last s)) =
    some (.fgbg, some (.value 0xFFFF)) := by decide +kernel
theorem test_wrRDe : after (exec (.wrRDe 0 10) opened) (fun s => (s.pendingEnable, s.reg 0x20)) = some (true, 0x3FFF) := by
  decide +kernel
theorem test_wrRMode : after (exec (.wrRMode 0x1234 10) openedCs) (fun s => (s.mode, s.reg 0x21)) = some (.fgbg, 0x3FFF) := by
  decide +kernel
theorem test_wrRBorder : after (exec (.wrRBorder 3 10) opened) (fun s => (s.reg 0x2C, last s)) =
    some (0x3FF3, some (.borderColor 3)) := by decide +kernel
theorem test_wrRBorder_unchanged : after (exec (.wrRBorder 0x1F 10) opened) (fun s => (s.reg 0x2C, last s)) =
    some (0x3FFF, none) := by decide +kernel
theorem test_wrRReg : after (exec (.wrRReg 0x08 0x1234 10) opened) (·.reg 0x08) = some 0x3234 := by decide +kernel
theorem test_wrRReg_attribute : after (exec (.wrRReg 0x10 0xC001 10) opened) (·.reg 0x10) = some 0x0001 := by decide +kernel
theorem test_wrRHigh : after (exec (.wrRHigh 0x0800 0x55 10) opened) (·.mem) = some [] := by decide +kernel
theorem test_peekR : after (exec (.peekR 0x20) State.reset) last = some (some (.value 0x3FFF)) := by decide +kernel
theorem test_pokeR : after (exec (.pokeR 0x2C 5) State.reset) (fun s => (s.reg 0x2C, last s)) =
    some (0x3FF5, some (.borderColor 5)) := by decide +kernel
theorem test_pokeR_de : after (exec (.pokeR 0x20 0) State.reset) (·.pendingEnable) = some true := by decide +kernel
theorem test_pokeRHigh : after (exec (.pokeRHigh 0x4020 1) State.reset) (·.pendingEnable) = some false := by decide +kernel
theorem test_rdS : after (exec (.rdS 0x0E05 10) { opened with mem := [(0x805, 0x34)] }) last =
    some (some (.value 0x0034)) := by decide +kernel
theorem test_rdS_late : after (exec (.rdS 0x0805 101) { opened with mem := [(0x805, 0x34)] }) last =
    some (some (.value 0xFFFF)) := by decide +kernel
theorem test_wrS : after (exec (.wrS 0x0A05 0x1234 10) opened) (fun s => (s.mem, s.shapeDirty)) =
    some ([(0x805, 0x34)], true) := by decide +kernel
theorem test_wrS_rom : after (exec (.wrS 0x1000 0x55 10) opened) (fun s => (s.mem, s.shapeDirty)) = some ([], false) := by
  decide +kernel
theorem test_peekS : after (exec (.peekS 0x0805) { State.reset with mem := [(0x805, 0x34)] }) last =
    some (some (.value 0x0034)) := by decide +kernel
theorem test_pokeS : after (exec (.pokeS 0x09FF 0x77) State.reset) (·.mem) = some [(0x9FF, 0x77)] := by decide +kernel
theorem test_pokeS_rom : after (exec (.pokeS 0x0005 0x99) State.reset) (·.mem) = some [] := by decide +kernel
theorem test_wrT : after (exec (.wrT 21 0x0807 5) State.reset) (fun s => (entry s.staging 21, entry s.visible 21)) =
    some (0x0807, 0) := by decide +kernel
theorem test_peekT : after (exec (.peekT 300) State.reset) last = some (some (.value 0xFFFF)) := by decide +kernel
theorem test_evReset : after (exec .evReset State.construction) (fun s => (s.reg 0x1F, s.reg 0x20, s.mode, last s)) =
    some (0x3FFF, 0, .fgbg, some (.borderColor 15)) := by decide +kernel
theorem test_evReset_keeps : after (exec .evReset { live with mem := [(0x803, 9)] }) (fun s => (s.liveEnable, s.mem)) =
    some (true, [(0x803, 9)]) := by decide +kernel
theorem test_evLatch : after (exec .evLatch { State.reset with pendingEnable := true, tileDirty := false })
    (fun s => (s.liveEnable, s.pendingEnable, s.tileDirty)) = some (true, false, true) := by decide +kernel
theorem test_evCapstart : after (exec .evCapstart { live with cursor := 100, firstAfterStart := false })
    (fun s => (s.cursor, s.firstAfterStart, last s)) = some (0, true, some (.busRequest .short)) := by decide +kernel
theorem test_evCaprow : after (exec (.evCaprow 4 true) { live with firstAfterStart := false, staging := oneHot 20 0x00AA })
    (fun s => (s.cursor, entry s.visible 20, last s)) = some (20, 0x00AA, some (.busRequest .full)) := by decide +kernel
theorem test_evCaprow_phase : faultOf (exec (.evCaprow 15 true) { live with firstAfterStart := false, cursor := 220 }) =
    some (.badPhase 15) := by decide +kernel
theorem test_evDeadline : after (exec (.evDeadline .reg .tv 1000) State.reset) (fun s => (s.regDeadline, s.memDeadline)) =
    some (.time 1000, .closed) := by decide +kernel
theorem test_evIso : after (exec (.evIso .tv 50) State.reset) (·.isoEnd) = some (.time 50) := by decide +kernel
theorem test_evColl : after (exec (.evColl 0 0x0102) { State.reset with regs := State.reset.regs.set 0x18 0x3C00 })
    (·.reg 0x18) = some 0x3D02 := by decide +kernel
theorem test_evColl_wide : after (exec (.evColl 7 0xFFFF) State.reset) (·.reg 0x1F) = some 0x3FFF := by decide +kernel
theorem test_evRender_off : after (exec (.evRender false) opened) (fun s => (s.out, s.regDirty, s.tileDirty)) =
    some ([.frameDirty true, .videoEnabled false], false, false) := by decide +kernel

/-- Program P1 before its last step, without the seed cells: card 0 shows GRAM card 0 in colour 7. -/
def picture : State :=
  { live with
    regs := ((State.reset.regs.set 0x30 0x3FF8).set 0x31 0x3FF8).set 0x32 0x3FFC
    mem := [(0x800, 0xFF), (0x801, 0x81)]
    visible := oneHot 0 0x0807 }

theorem test_evRender_on : after (exec (.evRender false) picture)
    (fun s => (s.df.get 0 0, s.df.get 8 16, s.df.get 8 18, s.df.get 9 18, s.surface.get 0 6)) = some (15, 7, 7, 0, 7) := by
  decide +kernel

/-! Vectors of the shared tables (95_test_vectors W12, 2.6, 2.8). -/

theorem test_expand8 : expand8 0xA5 = 0xF0F00F0F := by decide +kernel
theorem test_remap : (remap 0x0F false true, remap 0x0F true false) = (0xF000, 0x00FF) := by decide +kernel
theorem test_colourWord : colourWord (expand8 0xC3) 13 3 = 0xDD3333DD := by decide +kernel
theorem test_unpack2 : unpack2 0x7A = (7, 10) := by decide
theorem test_squareField : (List.range 4).map (squareField Config.reference 0x1688) = [0, 1, 2, 3] := by decide +kernel
theorem test_spriteIndex : (spriteIndex 0x0618 .fgbg, spriteIndex 0x0618 .cs, spriteIndex 0x280A .cs) = (0x018, 0x618, 0x808) := by
  decide
theorem test_sprite_rows_flipped : (State.bitmapRow { openedCs with
      mem := [(0x81E, 0x0F), (0x81F, 0x10)]
      regs := ((State.reset.regs.set 0x00 0x0710).set 0x08 0x0C94).set 0x10 0x081B }
    (State.sprite { openedCs with
      regs := ((State.reset.regs.set 0x00 0x0710).set 0x08 0x0C94).set 0x10 0x081B } 0) 0) = 0x00C0 := by decide +kernel

/-! ## States and operands that meet the hypotheses of the obligations, one theorem per obligation that has any -/

/-- Masked registers with sprite 0 the flipped 16-row sprite of 95_test_vectors 2.8, at XPOS 16, YPOS 20, the other sprites
skipped, no delay and no border extension. -/
def spriteRegs : Vector Word 64 :=
  (((((State.reset.regs.set 0x00 0x3F10).set 0x08 0x3C94).set 0x10 0x081B).set 0x30 0x3FF8).set 0x31 0x3FF8).set 0x32 0x3FFC

/-- Video enabled, Color-Stack, card 0 normal, card 239 colored squares. -/
def liveCs : State := { live with mode := .cs, regs := spriteRegs, visible := oneHot 239 0x1688 }

/-- `opened`, with the other value of `REGWIN_HIGH_WRITE`: a high write reaches the registers. -/
def highWrites : State := { opened with cfg := { Config.reference with highWrite := .lowRegister } }

theorem witness_DecodeEncodeRoundTrip : WellFormed (.wrRReg 0x2B 1 5) = true ∧ WellFormed (.rdRShape 0x40 5) = true ∧
    WellFormed (.rdRShape 0x3FFF 5) = true ∧ WellFormed (.rdRAlias 0x4000 5) = true := by decide

theorem witness_DecodedOperationsWellFormed : decode ⟨0x4002B, 1, 5, 0⟩ = .ok (.wrRReg 0x2B 1 5) := rfl

theorem witness_ReservedWordsRefused :
    (∃ s : State, ∃ x, s.inbox = [x] ∧ x.word.extractLsb' 16 2 = 2 ∧ x.word.extractLsb' 18 2 = 0) ∧
    (∃ s : State, ∃ x, s.inbox = [x] ∧ x.word.extractLsb' 16 2 = 2 ∧ x.word.extractLsb' 18 2 = 3) ∧
    (∃ s : State, ∃ x, s.inbox = [x] ∧ x.word.extractLsb' 16 2 = 3 ∧ x.word.extractLsb' 18 2 ≠ 0) ∧
    (∃ s : State, ∃ x, s.inbox = [x] ∧ x.word.extractLsb' 16 2 = 3 ∧ x.word.extractLsb' 18 2 = 0 ∧
      8 ≤ (x.word.extractLsb' 12 4).toNat) ∧
    (∃ s : State, ∃ x, s.inbox = [x] ∧ x.word.extractLsb' 16 2 = 3 ∧ x.word.extractLsb' 18 2 = 0 ∧
      x.word.extractLsb' 12 4 = 5 ∧ x.word.extractLsb' 1 2 = 3) ∧
    (∃ s : State, ∃ x, s.inbox = [x] ∧ x.word.extractLsb' 16 2 = 3 ∧ x.word.extractLsb' 18 2 = 0 ∧
      x.word.extractLsb' 12 4 = 6 ∧ x.word.extractLsb' 1 2 = 3) :=
  ⟨⟨delivered 0x20005, _, rfl, by decide⟩, ⟨delivered 0xE0000, _, rfl, by decide⟩, ⟨delivered 0x70000, _, rfl, by decide⟩,
    ⟨delivered 0x38000, _, rfl, by decide⟩, ⟨delivered 0x35006, _, rfl, by decide⟩, ⟨delivered 0x36006, _, rfl, by decide⟩⟩

/-- A host access on time (at the boundary), one too early, and an operation without timestamp. -/
theorem witness_StepRunsDecodedOperation :
    (State.inbox { delivered 0x00028 with lastTime := 0 } = [⟨0x00028, 0, 0, 0⟩] ∧
      decode ⟨0x00028, 0, 0, 0⟩ = .ok (.rdRReg 0x28 0)) ∧
    (0x00028 : BitVec 20).extractLsb' 18 2 = 0 ∧ (0x00028 : BitVec 20).extractLsb' 16 2 = 0 ∧
    State.lastTime { delivered 0x00028 with lastTime := 0 } ≤ 0 ∧ 0 < State.lastTime { delivered 0x00028 with lastTime := 1 } ∧
    (0x50800 : BitVec 20).extractLsb' 18 2 = 1 ∧ (0x50800 : BitVec 20).extractLsb' 16 2 = 1 ∧
    decode ⟨0xC002C, 0, 0, 0⟩ = .ok (.pokeR 0x2C 0) ∧ ¬ (0xC002C : BitVec 20).extractLsb' 18 2 = 0 ∧
    ¬ (0xC002C : BitVec 20).extractLsb' 18 2 = 1 :=
  ⟨⟨rfl, rfl⟩, by decide, by decide, by decide, by decide, by decide, by decide, rfl, by decide, by decide⟩

/-- The name of a refusal. -/
def whyRefused : Result → Option Refusal
  | .refused why => some why
  | .next _ => none
  | .fault _ => none

/-- A host access before the time of the last one is refused; a staging write carries a time that is not tested. -/
theorem test_step_time : whyRefused (step { delivered 0x00028 with lastTime := 1 }) = some .timeReversed ∧
    after (step { delivered 0x60015 with lastTime := 1 }) (·.lastTime) = some 1 := by decide +kernel

/-- A machine with the event `w` delivered, after the phase `p`; the cursor is at its end. -/
def eventAfter (p : Option (BitVec 4)) (w : BitVec 20) : State := { delivered w with lastPhase := p, cursor := 220 }

/-- For the clauses on order: events of each kind that are due, at the ends of their ranges, ones that are not, and one that is not
due and faults. -/
theorem witness_StepRunsDecodedOperation_order :
    decode ⟨0x31000, 0, 0, 0⟩ = .ok (.evRender false) ∧ (eventAfter (some 14) 0x31000).lastPhase = some 14 ∧
    (eventAfter (some 0) 0x31000).lastPhase = some 0 ∧ (eventAfter (some 14) 0x33000).lastPhase = some 14 ∧
    decode ⟨0x32000, 0, 0, 0⟩ = .ok .evLatch ∧ (eventAfter (some 0) 0x32000).lastPhase = some 0 ∧
    decode ⟨0x33000, 0, 0, 0⟩ = .ok .evCapstart ∧ (eventAfter (some 1) 0x33000).lastPhase = some 1 ∧
    decode ⟨0x34003, 0, 0, 0⟩ = .ok (.evCaprow 3 false) ∧ (eventAfter (some 2) 0x34003).lastPhase = some (3 - 1) ∧
    decode ⟨0x3400E, 0, 0, 0⟩ = .ok (.evCaprow 14 false) ∧ (eventAfter (some 13) 0x3400E).lastPhase = some (14 - 1) ∧
    (eventAfter none 0x3400E).lastPhase = none ∧
    (∃ t, exec .evLatch ((eventAfter (some 1) 0x32000).taken [] .evLatch) = .next t) ∧
    ∃ f, exec (.evCaprow 14 true) (State.taken { eventAfter (some 14) 0x3410E with firstAfterStart := false } [] (.evCaprow 14 true)) =
      .fault f :=
  ⟨rfl, rfl, rfl, rfl, rfl, rfl, rfl, rfl, rfl, rfl, rfl, rfl, rfl, ⟨_, rfl⟩, ⟨_, rfl⟩⟩

/-- A second latch and a start in the middle of a capture are refused; a start right after phase 14, a second
render and a first event run; a capture of phase 15 and one past the last row fault (93_implementation_defined U24, U1, U2; 95_test_vectors 2.11 and P3). -/
theorem test_step_order :
    whyRefused (step (eventAfter (some 1) 0x32000)) = some .eventOutOfOrder ∧
    whyRefused (step (eventAfter (some 7) 0x33000)) = some .eventOutOfOrder ∧
    after (step (eventAfter (some 14) 0x33000)) (·.cursor) = some 0 ∧
    after (step (eventAfter (some 0) 0x31000)) (·.lastPhase) = some (some 0) ∧
    after (step (eventAfter none 0x34007)) (·.lastPhase) = some (some 7) ∧
    (∃ f, step (eventAfter (some 5) 0x3400F) = .fault f) ∧
    ∃ f, step { eventAfter (some 14) 0x3410E with firstAfterStart := false } = .fault f :=
  ⟨by decide +kernel, by decide +kernel, by decide +kernel, by decide +kernel, by decide +kernel, ⟨_, rfl⟩, ⟨_, rfl⟩⟩

theorem witness_StepConsumesOneTransaction : State.reset.inbox = [] ∧ ∃ t, step (delivered 0xC002C) = .next t := ⟨rfl, _, rfl⟩

theorem witness_RegisterMasksKept : (delivered 0xC002C).RegsMasked ∧ ∃ t, step (delivered 0xC002C) = .next t :=
  ⟨by decide +kernel, _, rfl⟩

theorem witness_ShapeMemoryFormKept :
    State.MemCanonical { delivered 0xD0800 with mem := [(0x7FF, 1), (0x800, 2)] } ∧
      ∃ t, step { delivered 0xD0800 with mem := [(0x7FF, 1), (0x800, 2)] } = .next t := ⟨by decide, _, rfl⟩

theorem witness_CursorKeptAligned :
    State.CursorAligned { delivered 0x34104 with cursor := 200, firstAfterStart := false } ∧
      after (step { delivered 0x34104 with cursor := 200, firstAfterStart := false }) (·.cursor) = some 220 ∧
      ∃ t, step { delivered 0x34104 with cursor := 200, firstAfterStart := false } = .next t := ⟨by decide, by decide +kernel, _, rfl⟩

theorem witness_ParametersNeverChange : ∃ t, step (delivered 0x30000) = .next t := ⟨_, rfl⟩

theorem witness_GateChangesOnlyByEvents :
    (∃ t, exec (.evDeadline .reg .tv 5) State.reset = .next t ∧ t.regDeadline ≠ State.reset.regDeadline) ∧
    (∃ t, exec (.evDeadline .mem .inf 5) State.reset = .next t ∧ t.memDeadline ≠ State.reset.memDeadline) ∧
    (∃ t, exec (.evIso .tv 5) State.reset = .next t ∧ t.isoEnd ≠ State.reset.isoEnd) ∧
    (∃ t, exec .evReset opened = .next t ∧ t.isoEnd ≠ opened.isoEnd) :=
  ⟨⟨_, rfl, by decide⟩, ⟨_, rfl, by decide⟩, ⟨_, rfl, by decide⟩, ⟨_, rfl, by decide +kernel⟩⟩

theorem witness_MaskedStoreAndReadValue : State.reset.RegsMasked ∧ (0x3F : RegAddr) ≠ 0x20 := by decide +kernel

/-- At both ends of the window an access is honoured, one unit beyond either it is not: the hypotheses of every gated
statement. -/
theorem witness_gate : opened.honoured .reg 10 = true ∧ opened.honoured .reg 100 = true ∧ opened.honoured .reg 9 = false ∧
    opened.honoured .reg 101 = false ∧ opened.honoured .mem 10 = true ∧ opened.honoured .mem 100 = true ∧
    opened.honoured .mem 9 = false ∧ opened.honoured .mem 101 = false := by decide

theorem witness_ModeReadSelectsColorStack : opened.honoured .reg 10 = true ∧ opened.honoured .reg 9 = false ∧
    openedCs.honoured .reg 100 = true ∧ openedCs.mode = .cs := by decide

theorem witness_RegisterReadGated : (0x3F : RegAddr) ≠ 0x21 ∧ opened.honoured .reg 100 = true ∧ opened.honoured .reg 101 = false := by
  decide

theorem witness_ShapeReadThroughRegisterWindow : 0x40 ≤ (0x40 : BitVec 14).toNat ∧ 0x40 ≤ (0x3FFF : BitVec 14).toNat ∧
    opened.honoured .reg 10 = true ∧ opened.honoured .reg 9 = false := by decide

theorem witness_AliasReadsAllOnes : 0x4000 ≤ (0x4000 : Word).toNat ∧ 0x4000 ≤ (0xFFFF : Word).toNat := by decide

theorem witness_DisplayEnableWrite : opened.honoured .reg 100 = true ∧ opened.honoured .reg 101 = false := by decide

theorem witness_ModeWriteSelectsForeBack : openedCs.honoured .reg 100 = true ∧ openedCs.honoured .reg 101 = false := by decide

theorem witness_BorderWriteNotifies : opened.honoured .reg 10 = true ∧ opened.honoured .reg 9 = false ∧
    opened.masked 0x2C 0x1F = opened.reg 0x2C ∧ opened.masked 0x2C 3 ≠ opened.reg 0x2C := by decide +kernel

theorem witness_RegisterWriteMasked : (0x2B : RegAddr) ≠ 0x20 ∧ (0x2B : RegAddr) ≠ 0x21 ∧ (0x2B : RegAddr) ≠ 0x2C ∧
    opened.honoured .reg 100 = true ∧ opened.honoured .reg 101 = false := by decide

theorem witness_HighWritesFollowParameter : 0x40 ≤ (0x40 : Word).toNat ∧ 0x40 ≤ (0xFFFF : Word).toNat ∧
    opened.cfg.highWrite = .drop ∧ highWrites.cfg.highWrite = .lowRegister := by decide

theorem witness_CollisionEventOnlySetsBits :
    State.reset.masked 0x1B (State.reset.reg 0x1B) = State.reset.reg 0x1B ∧ (State.reset.reg 0x1B).getLsbD 0 = true := by
  decide +kernel

/-- W1 of 95_test_vectors, in legal time: the write at 10, the gate closed, a write at 20 dropped, the gate opened, the read at
30. -/
theorem witness_RegisterPropertyAcrossDroppedWrites :
    opened.honoured .reg 10 = true ∧ opened.honoured .reg 100 = true ∧
    after (exec (decodeRegWrite 0x30 5 10) opened) (fun w =>
      (w.onlyDroppedWrites [.evDeadline .reg .closed 0, .wrRReg 0x30 2 20, .wrRMode 0 20, .wrRDe 0 20, .wrRBorder 0 20,
          .wrRHigh 0x40 0 20, .evIso .tv 25, .evDeadline .reg .inf 0],
        after (runOps [.evDeadline .reg .closed 0, .wrRReg 0x30 2 20, .wrRMode 0 20, .wrRDe 0 20, .wrRBorder 0 20,
          .wrRHigh 0x40 0 20, .evIso .tv 25, .evDeadline .reg .inf 0] w) (·.honoured .reg 30))) = some (true, some true) := by
  decide +kernel

theorem test_W1_timeOrdered : TimeOrdered [.wrRReg 0x30 5 10, .evDeadline .reg .closed 0, .wrRReg 0x30 2 20,
    .evDeadline .reg .inf 0, .rdRReg 0x30 30] := by decide

theorem witness_UnimplementedRegistersFixed : opened.cfg.wf ∧ opened.RegsMasked ∧ (0x3F : RegAddr) ∈ opened.cfg.unimplemented ∧
    (0x3F : RegAddr) ≠ 0x20 := by decide +kernel

theorem witness_UnimplementedRegistersFixed_step : State.cfg (delivered 0xC003F) = Config.reference ∧
    (delivered 0xC003F).RegsMasked ∧ ∃ t, step (delivered 0xC003F) = .next t := ⟨rfl, by decide +kernel, _, rfl⟩

theorem witness_ModeChangesOnlyAtModeRegister :
    (∃ t, exec (.rdRMode 10) opened = .next t ∧ t.mode ≠ opened.mode) ∧
    (∃ t, exec (.wrRMode 0 10) openedCs = .next t ∧ t.mode ≠ openedCs.mode) ∧
    (∃ t, exec .evReset openedCs = .next t ∧ t.mode ≠ openedCs.mode) ∧
    (∃ t, exec (.pokeR 0x21 0) openedCs = .next t ∧ t.mode ≠ openedCs.mode) ∧
    ∃ t, exec (.pokeRHigh 0x61 0) { highWrites with mode := .cs } = .next t ∧ t.mode ≠ .cs :=
  ⟨⟨_, rfl, by decide +kernel⟩, ⟨_, rfl, by decide +kernel⟩, ⟨_, rfl, by decide +kernel⟩, ⟨_, rfl, by decide +kernel⟩,
    ⟨_, rfl, by decide +kernel⟩⟩

theorem witness_EnableChangesOnlyAtLatch :
    (∃ t, exec .evLatch live = .next t ∧ t.liveEnable ≠ live.liveEnable) ∧
    ∃ t, exec .evLatch { live with pendingEnable := true } = .next t ∧ t.pendingEnable = false :=
  ⟨⟨_, rfl, by decide⟩, ⟨_, rfl, rfl⟩⟩

theorem witness_ShapeReads : opened.honoured .mem 10 = true ∧ opened.honoured .mem 9 = false ∧
    (0x0A05 : Word).getLsbD 11 = true ∧ (0x1805 : Word).getLsbD 11 = true ∧ (0x0A05 : Word) &&& 0x9FF = 0x1805 &&& 0x9FF := by
  decide

theorem witness_ShapeWrites : State.MemCanonical { opened with mem := [(0x800, 2), (0x9FF, 1)] } ∧
    0x800 ≤ (0xF800 : Word).toNat % 0x1000 ∧ 0x800 ≤ (0x0FFF : Word).toNat % 0x1000 ∧ (0x17FF : Word).toNat % 0x1000 < 0x800 := by
  decide

theorem witness_RomNeverChanges : ∃ t, step { delivered 0xD07FF with mem := [(0x7FF, 1)] } = .next t := ⟨_, rfl⟩

theorem witness_StagingAccess : (239 : Word).toNat < 240 ∧ 240 ≤ (240 : Word).toNat ∧ 240 ≤ (0xFFFF : Word).toNat := by decide

theorem witness_CaptureRowCopies : 3 ≤ (3 : BitVec 4).toNat ∧ (14 : BitVec 4).toNat ≤ 14 ∧ (3 : BitVec 4).toNat ≤ 14 ∧
    3 ≤ (14 : BitVec 4).toNat ∧
    (State.firstAfterStart { live with firstAfterStart := false, cursor := 200 } = false → true = true →
      State.cursor { live with firstAfterStart := false, cursor := 200 } + 20 ≤ 220) := by decide

theorem witness_CaptureRowFaults : (2 : BitVec 4).toNat < 3 ∧ 14 < (15 : BitVec 4).toNat ∧ 3 ≤ (14 : BitVec 4).toNat ∧
    (14 : BitVec 4).toNat ≤ 14 ∧ State.firstAfterStart { live with firstAfterStart := false, cursor := 220 } = false ∧
    220 < State.cursor { live with firstAfterStart := false, cursor := 220 } + 20 := by decide

/-- A faulting capture, and a whole frame in the order of R84 with the video off. -/
theorem witness_OnlyCaptureFaults : exec (.evCaprow 15 true) State.reset = .fault (.badPhase 15) ∧
    FrameOrdered (.capturing 14) opened ([.evRender false, .evDeadline .reg .tv 200, .rdRReg 0 5, .evDeadline .mem .tv 200,
      .evLatch, .evDeadline .mem .inf 0, .evDeadline .reg .inf 0] ++ frameCapture fun _ => true) = true :=
  ⟨rfl, by decide +kernel⟩

/-- The order of 30_encoding R84: no capture before its `EV.CAPSTART`, no phase passed over, no `EV.DEADLINE` left out. -/
theorem test_frameOrdered : FrameOrdered (.capturing 14) opened [.evRender false, .evCaprow 1 true] = false ∧
    FrameOrdered (.capturing 14) opened [.evRender false, .evLatch] = false ∧
    FrameOrdered .boot opened [.evDeadline .reg .inf 0, .evCapstart, .evCaprow 4 true] = false ∧
    FrameOrdered .boot opened [.evCaprow 3 true, .evCaprow 4 true, .evColl 3 0] = true := by decide +kernel

/-- 60_exceptions R348: `EV.COLL` comes after a `Coll.run`, so not before a render nor after one with the video off. -/
theorem test_collOrdered : CollOrdered false opened [.evColl 3 0] = false ∧
    CollOrdered false opened [.evRender false, .evColl 3 0] = false ∧
    CollOrdered false live [.evRender true, .evColl 3 0] = true := by decide +kernel

theorem witness_BufferIsolation :
    ∃ t, exec (.evCaprow 3 true) { live with staging := oneHot 0 1 } = .next t ∧ t.visible ≠ live.visible :=
  ⟨_, rfl, by decide +kernel⟩

theorem witness_FrameCaptureFollowsAcks : ∀ j : Nat, (fun _ : Nat => true) j = true := fun _ => rfl

theorem witness_RenderDisabledReportsOnly : opened.liveEnable = false := rfl

theorem witness_RenderEnabledCompletes : live.liveEnable = true := rfl

theorem witness_DroppedFrameKeepsPicture : live.liveEnable = true ∧ ∃ u, exec (.evRender true) live = .next u := ⟨rfl, _, rfl⟩

theorem witness_StackCardPixels : liveCs.liveEnable = true ∧ liveCs.mode = .cs ∧
    (entry liveCs.visible 0 &&& 0x3FFF).extractLsb' 11 2 ≠ 0b10#2 ∧
    (entry liveCs.visible 219 &&& 0x3FFF).extractLsb' 11 2 ≠ 0b10#2 ∧ (∃ u, exec (.evRender false) liveCs = .next u) ∧
    ∃ u, exec (.evRender true) liveCs = .next u :=
  ⟨rfl, rfl, by decide +kernel, by decide +kernel, ⟨_, rfl⟩, ⟨_, rfl⟩⟩

theorem witness_SquaresCardPixels : liveCs.liveEnable = true ∧ liveCs.mode = .cs ∧
    (entry liveCs.visible 239 &&& 0x3FFF).extractLsb' 11 2 = 0b10#2 ∧ ∃ u, exec (.evRender false) liveCs = .next u :=
  ⟨rfl, rfl, by decide +kernel, _, rfl⟩

theorem witness_ForeBackCardPixels : live.liveEnable = true ∧ live.mode = .fgbg ∧ ∃ u, exec (.evRender false) live = .next u :=
  ⟨rfl, rfl, _, rfl⟩

/-- The delays after reset are 7: the pixels (161, 0), (0, 97) are pushed off, and so is scanline 194. -/
theorem witness_EdgeAndSeedPixelsClear : live.liveEnable = true ∧ 167 < 161 + live.hDelay ∧ 103 < 97 + live.vDelay ∧
    207 < 194 + 2 * live.vDelay ∧ ∃ u, exec (.evRender false) live = .next u :=
  ⟨rfl, by decide +kernel, by decide +kernel, by decide +kernel, _, rfl⟩

theorem witness_SpriteBitmapsAndBoxes : liveCs.liveEnable = true ∧ (liveCs.sprite 0).rows = 16 ∧ (liveCs.sprite 7).xpos = 255 ∧
    ∃ u, exec (.evRender true) liveCs = .next u := ⟨rfl, by decide +kernel, by decide +kernel, _, rfl⟩

/-- The limits of 45_sprite_renderer R257 (95_test_vectors 2.8), sprite 0 visible and interacting: XPOS 0, 1, 167, 168 at YPOS 10,
then YPOS 103, 104 at XPOS 10. -/
theorem witness_SpriteDecodeAndSkip : [(0, 10), (1, 10), (167, 10), (168, 10), (10, 103), (10, 104)].map (fun xy : Nat × Nat =>
      let p := State.sprite { opened with
        regs := (State.reset.regs.set 0x00 (BitVec.ofNat 16 (0x3B00 + xy.1))).set 0x08 (BitVec.ofNat 16 (0x3000 + xy.2)) } 0
      ((p.xpos.toNat, p.ypos.toNat), p.skip, p.composited)) =
    [((0, 10), true, false), ((1, 10), false, true), ((167, 10), false, true), ((168, 10), true, false),
      ((10, 103), false, true), ((10, 104), true, false)] := by decide +kernel

/-- Neither visible nor interacting is skipped; interacting only is not skipped and not composited; visible only is
composited. -/
theorem test_sprite_flags : [0x380A, 0x390A, 0x3A0A].map (fun x : Word =>
      let p := State.sprite { opened with regs := (State.reset.regs.set 0x00 x).set 0x08 0x300A } 0
      (p.skip, p.composited)) = [(true, false), (false, false), (false, true)] := by decide +kernel

/-- Sprite 0 is composited, sprite 7 is not; the corner (167, 207) is in the planes. -/
theorem witness_CompositedPlanes : liveCs.liveEnable = true ∧ (liveCs.sprite 0).composited = true ∧
    (liveCs.sprite 7).composited = false ∧ 167 < 168 ∧ 207 < 208 ∧ ∃ u, exec (.evRender false) liveCs = .next u :=
  ⟨rfl, by decide +kernel, by decide +kernel, by decide, by decide, _, rfl⟩

/-- The first pixel inside the border, the last before the right border, and the corners are in the display field. -/
theorem witness_DisplayFieldPixels : liveCs.liveEnable = true ∧ liveCs.inBorder 8 16 = false ∧ liveCs.inBorder 167 207 = false ∧
    liveCs.inBorder 175 223 = true ∧ ∃ u, exec (.evRender false) liveCs = .next u :=
  ⟨rfl, by decide +kernel, by decide +kernel, by decide +kernel, _, rfl⟩

/-- The delays of `live` are 7 and its borders extended; those of `liveCs` are 0 and its borders plain. -/
theorem witness_ZeroFillNeverShows : live.liveEnable = true ∧ 8 ≤ live.columnSize ∧ 16 ≤ live.bandSize ∧
    live.inBorder 16 32 = false ∧ 8 ≤ liveCs.columnSize ∧ 16 ≤ liveCs.bandSize ∧ liveCs.inBorder 8 16 = false ∧
    (∃ u, exec (.evRender false) live = .next u) ∧ ∃ u, exec (.evRender false) liveCs = .next u :=
  ⟨rfl, by decide +kernel, by decide +kernel, by decide +kernel, by decide +kernel, by decide +kernel, by decide +kernel,
    ⟨_, rfl⟩, ⟨_, rfl⟩⟩

theorem witness_SurfacePixels : live.liveEnable = true ∧ 159 < 160 ∧ 199 < 200 ∧ ∃ u, exec (.evRender false) live = .next u :=
  ⟨rfl, by decide, by decide, _, rfl⟩

theorem witness_ExpansionTables : 7 < 8 ∧ 15 < 16 := by decide

end Sys2Proof.Tests
end

