-- ==== Sys2Proof/Proofs/Parameters.lean ====
section
/-! PROOF. The implementation parameters are no part of what an operation changes (00_scope R9): first the operations that the
frame lemmas of Laws/ do not yet cover, then every operation, then a step. -/

namespace Sys2Proof.Machine

variable (s : State)

/-! ## Operations made of selected writes -/

@[simp] theorem State.writeDe_cfg (v : Word) : (s.writeDe v).cfg = s.cfg := by simp [State.writeDe]

@[simp] theorem State.writeMode_cfg (v : Word) : (s.writeMode v).cfg = s.cfg := by simp [State.writeMode]

@[simp] theorem State.writeBorder_cfg (v : Word) : (s.writeBorder v).cfg = s.cfg := by
  unfold State.writeBorder
  split <;> simp

@[simp] theorem State.writeHigh_cfg (a v : Word) : (s.writeHigh a v).cfg = s.cfg := by
  obtain h | ⟨-, h⟩ := s.writeHigh_cases a v
  · rw [h]
  · rw [h, State.writeSelected_cfg]

/-- What every selected write keeps, the synthetic writes of a reset keep (70_reset_and_hazards R371). -/
theorem State.syntheticWrites_keeps {P : State → Prop} (hs : P s)
    (hw : ∀ (u : State) (a : RegAddr) (v : Word), P u → P (u.writeSelected a v)) :
    P s.syntheticWrites :=
  List.foldlRecOn syntheticAddrs _ hs fun u hu a _ => hw u a 0xFFFF hu

@[simp] theorem State.syntheticWrites_cfg : s.syntheticWrites.cfg = s.cfg :=
  s.syntheticWrites_keeps (P := fun u => u.cfg = s.cfg) rfl fun u a v hu => (u.writeSelected_cfg a v).trans hu

/-! ## The render pipeline -/

@[simp] theorem State.sinkReport_cfg : s.sinkReport.cfg = s.cfg := by simp [State.sinkReport]

@[simp] theorem State.renderPlanes_cfg (drop : Bool) : (s.renderPlanes drop).cfg = s.cfg := by
  cases drop <;> simp [State.renderPlanes]

@[simp] theorem State.showFrame_cfg : s.showFrame.cfg = s.cfg := by simp [State.showFrame]

@[simp] theorem State.renderFrame_cfg (drop : Bool) : (s.renderFrame drop).cfg = s.cfg := by
  cases drop <;> simp [State.renderFrame]

/-! ## Every operation -/

/-- A guarded update keeps the parameters when the update does: the gate of the host writes, the video enable of
`EV.RENDER`. -/
theorem cfg_ite {c : Prop} [Decidable c] {s u : State} (hu : u.cfg = s.cfg) : (if c then u else s).cfg = s.cfg := by
  split
  · exact hu
  · rfl

/-- `EV.CAPROW` faults or moves words of the tables (42_tile_capture R172). -/
theorem execEvCaprow_cfg {p : BitVec 4} {ack : Bool} {s t : State} (h : execEvCaprow p ack s = .next t) : t.cfg = s.cfg := by
  unfold execEvCaprow raiseFatal at h
  split at h
  · cases h
  · split at h
    · cases h
    · cases h
      simp

/-- No operation changes the parameters. -/
theorem exec_cfg {i : Instr} {s t : State} (h : exec i s = .next t) : t.cfg = s.cfg := by
  cases i with
  | rdRMode T =>
    simp only [exec, execRdRMode] at h
    split at h <;> cases h <;> simp
  | rdRReg | rdRShape | rdRAlias | peekR | rdS | peekS | peekT => cases h; exact State.emit_cfg _ _
  | wrRDe v => cases h; exact cfg_ite (s.writeDe_cfg v)
  | wrRMode v => cases h; exact cfg_ite (s.writeMode_cfg v)
  | wrRBorder v => cases h; exact cfg_ite (s.writeBorder_cfg v)
  | wrRReg a v => cases h; exact cfg_ite (s.store_cfg a v)
  | wrRHigh a v => cases h; exact cfg_ite (s.writeHigh_cfg a v)
  | wrS a v => cases h; exact cfg_ite (s.shapeWrite_cfg a v)
  | pokeR a v => cases h; exact s.writeSelected_cfg a v
  | pokeRHigh a v => cases h; exact s.writeHigh_cfg a v
  | pokeS a v => cases h; exact s.shapeWrite_cfg a v
  | wrT =>
    simp only [exec, execWrT] at h
    cases h
    split <;> rfl
  | evReset =>
    simp only [exec, execEvReset, Host.Outcome.next.injEq] at h
    rw [← h]
    simp
  | evRender drop => cases h; exact (State.sinkReport_cfg _).trans (cfg_ite (s.renderFrame_cfg drop))
  | evLatch => cases h; exact s.latchEnable_cfg
  | evCapstart => cases h; exact State.requestBus_cfg _ _
  | evCaprow => exact execEvCaprow_cfg h
  | evDeadline target => cases target <;> cases h <;> rfl
  | evIso => cases h; rfl
  | evColl => cases h; exact State.store_cfg _ _ _

/-- Settles O12: a step that answers a next state did nothing, or executed one operation in a state with the same parameters. -/
theorem parametersNeverChange : Obligations.ParametersNeverChange := by
  intro s t h
  obtain ⟨-, rfl⟩ | ⟨x, rest, i, -, -, -, -, hexec⟩ := step_next h
  · rfl
  · exact (exec_cfg hexec).trans (s.taken_cfg rest i)

end Sys2Proof.Machine
end

section
/-! PROOF. The invariants of the state (10_state R20, R34, R36) and who changes the mode and the enables (R29, R31): first what a
reset writes, then what any operation does to the fields these rules speak of (`Effect`, said once), then the rules. -/

namespace Sys2Proof.Machine

variable (s : State)

/-! ## A run of selected writes (70_reset_and_hazards R371) -/

/-- A selected write sets `reg_dirty` when it changes its word (40_register_access R102). -/
theorem State.writeSelected_regDirty (a : RegAddr) (v : Word) :
    (s.writeSelected a v).regDirty = (s.regDirty || s.storeChanges a v) := by
  have hchanges {u : State} (hc : u.cfg = s.cfg) (hr : u.regs = s.regs) : u.storeChanges a v = s.storeChanges a v := by
    simp only [State.storeChanges, State.masked_congr hc, State.reg_congr hr]
  unfold State.writeSelected State.writeDe State.writeMode State.writeBorder
  split
  · next h => rw [State.store_regDirty, State.setPending_regDirty, ← h, hchanges s.setPending_cfg s.setPending_regs]
  · split
    · next h =>
      rw [State.store_regDirty, State.modeSet_regDirty, ← h, hchanges (s.modeSet_cfg _) (s.modeSet_regs _)]
    · split
      · next h =>
        subst h
        split <;> simp_all [State.store_regDirty]
      · exact s.store_regDirty a v

/-- A selected write sets `tile_dirty` when it changes the mode (40_register_access R111, R121). -/
theorem State.writeSelected_tileDirty (a : RegAddr) (v : Word) :
    (s.writeSelected a v).tileDirty = (s.tileDirty || (a == 0x21 && s.mode != .fgbg)) := by
  unfold State.writeSelected State.writeDe State.writeMode State.writeBorder
  split
  · simp_all
  · split
    · simp_all [State.modeSet_tileDirty]
    · split
      · split <;> simp_all
      · simp_all

/-- A selected write announces the border colour when it changes 0x2C (40_register_access R112). -/
theorem State.writeSelected_out (a : RegAddr) (v : Word) :
    (s.writeSelected a v).out =
      s.out ++ if a = 0x2C ∧ s.storeChanges 0x2C v = true then [.borderColor (field (s.masked 0x2C v) 0 4)] else [] := by
  unfold State.writeSelected State.writeDe State.writeMode State.writeBorder
  split
  · simp_all
  · split
    · simp_all
    · split
      · split <;> simp_all [State.borderColour, State.store_reg, State.emit]
      · simp_all

/-- A word changes at most once when the same data is written again. -/
theorem State.writeSelected_storeChanges (a b : RegAddr) (v : Word) :
    (s.writeSelected a v).storeChanges b v = (b != a && s.storeChanges b v) := by
  rw [State.storeChanges, State.masked_congr (s.writeSelected_cfg a v), State.writeSelected_reg]
  by_cases h : b = a <;> simp [h, State.storeChanges]

/-- `v` written to the registers of a list in turn, by the write rule of each. -/
def State.writeAll (s : State) (l : List RegAddr) (v : Word) : State := l.foldl (fun u a => u.writeSelected a v) s

theorem State.syntheticWrites_eq_writeAll : s.syntheticWrites = s.writeAll syntheticAddrs 0xFFFF := rfl

@[simp] theorem State.writeAll_nil (v : Word) : s.writeAll [] v = s := rfl

@[simp] theorem State.writeAll_cons (a : RegAddr) (l : List RegAddr) (v : Word) :
    s.writeAll (a :: l) v = (s.writeSelected a v).writeAll l v := rfl

/-- The listed registers hold the masked word, the others their old one. -/
theorem State.writeAll_reg (l : List RegAddr) (v : Word) (b : RegAddr) :
    (s.writeAll l v).reg b = if b ∈ l then s.masked b v else s.reg b := by
  induction l generalizing s with
  | nil => simp
  | cons a l ih =>
    rw [State.writeAll_cons, ih, State.masked_congr (s.writeSelected_cfg a v), State.writeSelected_reg]
    by_cases hl : b ∈ l
    · simp [hl]
    · by_cases ha : b = a <;> simp [hl, ha]

theorem State.writeAll_mode (l : List RegAddr) (v : Word) :
    (s.writeAll l v).mode = if 0x21 ∈ l then .fgbg else s.mode := by
  induction l generalizing s with
  | nil => simp
  | cons a l ih =>
    rw [State.writeAll_cons, ih, State.writeSelected_mode]
    by_cases hl : 0x21 ∈ l
    · rw [if_pos hl, if_pos (.tail a hl)]
    · simp only [hl, List.mem_cons, or_false, if_false, eq_comm]

theorem State.writeAll_pendingEnable (l : List RegAddr) (v : Word) :
    (s.writeAll l v).pendingEnable = (s.pendingEnable || decide (0x20 ∈ l)) := by
  induction l generalizing s with
  | nil => simp
  | cons a l ih =>
    rw [State.writeAll_cons, ih, State.writeSelected_pendingEnable, Bool.or_assoc]
    simp [Bool.beq_eq_decide_eq, eq_comm]

theorem State.writeAll_tileDirty (l : List RegAddr) (v : Word) :
    (s.writeAll l v).tileDirty = (s.tileDirty || (decide (0x21 ∈ l) && s.mode != .fgbg)) := by
  induction l generalizing s with
  | nil => simp
  | cons a l ih =>
    rw [State.writeAll_cons, ih, State.writeSelected_tileDirty, State.writeSelected_mode]
    by_cases ha : a = 0x21
    · simp [ha]
    · simp only [List.mem_cons, ha, Ne.symm ha, beq_false_of_ne ha, false_or, if_false, Bool.false_and, Bool.or_false]

theorem State.writeAll_regDirty (l : List RegAddr) (v : Word) :
    (s.writeAll l v).regDirty = (s.regDirty || l.any (s.storeChanges · v)) := by
  induction l generalizing s with
  | nil => simp
  | cons a l ih =>
    rw [State.writeAll_cons, ih, State.writeSelected_regDirty, Bool.or_assoc, List.any_cons]
    simp only [State.writeSelected_storeChanges]
    cases ha : s.storeChanges a v with
    | true => simp
    | false =>
      have hother (b : RegAddr) : (b != a && s.storeChanges b v) = s.storeChanges b v := by
        by_cases hb : b = a <;> simp [hb, ha]
      simp only [hother]

theorem State.writeAll_out (l : List RegAddr) (v : Word) :
    (s.writeAll l v).out =
      s.out ++ if 0x2C ∈ l ∧ s.storeChanges 0x2C v = true then [.borderColor (field (s.masked 0x2C v) 0 4)] else [] := by
  induction l generalizing s with
  | nil => simp
  | cons a l ih =>
    rw [State.writeAll_cons, ih, State.writeSelected_out, State.writeSelected_storeChanges,
      State.masked_congr (s.writeSelected_cfg a v)]
    by_cases ha : a = 0x2C
    · simp [ha]
    · simp only [List.mem_cons, ha, Ne.symm ha, bne_iff_ne.mpr (Ne.symm ha), false_or, false_and, if_false, Bool.true_and,
        List.append_nil]

/-- The other fields are those no selected write touches. -/
theorem State.writeAll_frame (l : List RegAddr) (v : Word) :
    s.writeAll l v = { s with
      regs := (s.writeAll l v).regs
      regDirty := (s.writeAll l v).regDirty
      pendingEnable := (s.writeAll l v).pendingEnable
      mode := (s.writeAll l v).mode
      tileDirty := (s.writeAll l v).tileDirty
      out := (s.writeAll l v).out } := by
  induction l generalizing s with
  | nil => rfl
  | cons a l ih =>
    rw [State.writeAll_cons, ih, State.writeSelected_frame]

/-! ## The synthetic writes of a reset -/

theorem mem_syntheticAddrs (a : RegAddr) : a ∈ syntheticAddrs ↔ a ≠ 0x20 := by
  rw [syntheticAddrs, List.mem_filter, bne_iff_ne]
  exact and_iff_right (List.mem_map.mpr ⟨a.toNat, List.mem_range.mpr a.isLt, by simp⟩)

theorem State.syntheticWrites_reg (a : RegAddr) :
    s.syntheticWrites.reg a = if a = 0x20 then s.reg a else s.masked a 0xFFFF := by
  simp [State.syntheticWrites_eq_writeAll, State.writeAll_reg, mem_syntheticAddrs]

theorem State.syntheticWrites_mode : s.syntheticWrites.mode = .fgbg := by
  simp [State.syntheticWrites_eq_writeAll, State.writeAll_mode, mem_syntheticAddrs]

theorem State.syntheticWrites_pendingEnable : s.syntheticWrites.pendingEnable = s.pendingEnable := by
  simp [State.syntheticWrites_eq_writeAll, State.writeAll_pendingEnable, mem_syntheticAddrs]

theorem State.syntheticWrites_tileDirty : s.syntheticWrites.tileDirty = (s.tileDirty || s.mode != .fgbg) := by
  simp [State.syntheticWrites_eq_writeAll, State.writeAll_tileDirty, mem_syntheticAddrs]

theorem State.syntheticWrites_regDirty :
    s.syntheticWrites.regDirty = (s.regDirty || syntheticAddrs.any (s.storeChanges · 0xFFFF)) :=
  s.writeAll_regDirty syntheticAddrs 0xFFFF

theorem State.syntheticWrites_out :
    s.syntheticWrites.out =
      s.out ++ if s.storeChanges 0x2C 0xFFFF = true then [.borderColor (field (s.masked 0x2C 0xFFFF) 0 4)] else [] := by
  simp [State.syntheticWrites_eq_writeAll, State.writeAll_out, mem_syntheticAddrs]

theorem State.syntheticWrites_frame :
    s.syntheticWrites = { s with
      regs := s.syntheticWrites.regs
      regDirty := s.syntheticWrites.regDirty
      pendingEnable := s.syntheticWrites.pendingEnable
      mode := s.syntheticWrites.mode
      tileDirty := s.syntheticWrites.tileDirty
      out := s.syntheticWrites.out } :=
  s.writeAll_frame syntheticAddrs 0xFFFF

@[simp] theorem State.syntheticWrites_liveEnable : s.syntheticWrites.liveEnable = s.liveEnable := by
  rw [State.syntheticWrites_frame]

@[simp] theorem State.syntheticWrites_mem : s.syntheticWrites.mem = s.mem := by rw [State.syntheticWrites_frame]

/-! ## What an operation does to the registers, the mode, the enables, shape memory and the cursor -/

/-- `t` agrees with `s` in every field that the rules of 10_state settled here speak of. -/
structure State.Alike (s t : State) : Prop where
  cfg : t.cfg = s.cfg
  regs : t.regs = s.regs
  mode : t.mode = s.mode
  pendingEnable : t.pendingEnable = s.pendingEnable
  liveEnable : t.liveEnable = s.liveEnable
  mem : t.mem = s.mem
  cursor : t.cursor = s.cursor

theorem State.Alike.refl : s.Alike s := ⟨rfl, rfl, rfl, rfl, rfl, rfl, rfl⟩

theorem State.Alike.trans {s t u : State} (h : s.Alike t) (k : t.Alike u) : s.Alike u :=
  ⟨k.cfg.trans h.cfg, k.regs.trans h.regs, k.mode.trans h.mode, k.pendingEnable.trans h.pendingEnable,
    k.liveEnable.trans h.liveEnable, k.mem.trans h.mem, k.cursor.trans h.cursor⟩

theorem State.emit_alike (o : Output) : s.Alike (s.emit o) := ⟨rfl, rfl, rfl, rfl, rfl, rfl, rfl⟩

theorem State.sinkReport_alike : s.Alike s.sinkReport := ⟨rfl, rfl, rfl, rfl, rfl, rfl, rfl⟩

theorem State.renderPlanes_alike (drop : Bool) : s.Alike (s.renderPlanes drop) := by
  cases drop <;> constructor <;> simp [State.renderPlanes]

theorem State.showFrame_alike : s.Alike s.showFrame := by constructor <;> simp [State.showFrame]

theorem State.emitColl_alike : s.Alike s.emitColl := by constructor <;> simp

/-- Rendering a frame writes render state only (46_edge_merge_unpack R320). -/
theorem State.renderFrame_alike (drop : Bool) : s.Alike (s.renderFrame drop) := by
  have hplanes := s.renderPlanes_alike drop
  cases drop with
  | true => exact hplanes.trans (State.emitColl_alike _)
  | false => exact (hplanes.trans (State.showFrame_alike _)).trans (State.emitColl_alike _)

/-- In state `s`, operation `i` runs the write rule of register `a` with data `v` (40_register_access R110 to R113, R116, R117). -/
inductive State.Selects (s : State) : Instr → RegAddr → Word → Prop
  | de {v n} (hg : s.honoured .reg n = true) : s.Selects (.wrRDe v n) 0x20 v
  | mode {v n} (hg : s.honoured .reg n = true) : s.Selects (.wrRMode v n) 0x21 v
  | border {v n} (hg : s.honoured .reg n = true) : s.Selects (.wrRBorder v n) 0x2C v
  | poke {a v} : s.Selects (.pokeR a v) a v
  | high {a v n} (hw : s.cfg.highWrite = .lowRegister) (hg : s.honoured .reg n = true) :
      s.Selects (.wrRHigh a v n) (a.setWidth 6) v
  | pokeHigh {a v} (hw : s.cfg.highWrite = .lowRegister) : s.Selects (.pokeRHigh a v) (a.setWidth 6) v

/-- What completing operation `i` can do to the fields of `State.Alike`. -/
inductive Effect (s : State) : Instr → State → Prop
  /-- Nothing: reads and peeks, staging writes, gate events, renders, and whatever its gate or its address drops. -/
  | alike {i t} (h : s.Alike t) : Effect s i t
  /-- An honoured read of 0x21. -/
  | modeRead {n t} (hg : s.honoured .reg n = true) (h : (s.modeSet .cs).Alike t) : Effect s (.rdRMode n) t
  /-- A write rule of the register window. -/
  | selected {i a v} (h : s.Selects i a v) : Effect s i (s.writeSelected a v)
  /-- A plain masked store: `WR.R.REG` and `EV.COLL`. -/
  | stored {i a v} : Effect s i (s.store a v)
  /-- A shape write or poke. -/
  | shape {i a v} : Effect s i (s.shapeWrite a v)
  | latched : Effect s .evLatch s.latchEnable
  /-- A capture event: the cursor goes to 0, stays, or advances within the table. -/
  | captured {i c t} (hc : c = 0 ∨ c = s.cursor ∨ (c = s.cursor + 20 ∧ c ≤ 220))
      (h : State.Alike { s with cursor := c } t) : Effect s i t
  | reset : Effect s .evReset s.zeroRegs.syntheticWrites.resetControl

/-- A gate that drops the update leaves the state as it was. -/
theorem Effect.gated {s u : State} {i : Instr} {c : Prop} [Decidable c] (h : c → Effect s i u) :
    Effect s i (if c then u else s) := by
  split
  · next hc => exact h hc
  · exact .alike (.refl s)

theorem State.writeSelected_de (v : Word) : s.writeSelected 0x20 v = s.writeDe v := by simp [State.writeSelected]

theorem State.writeSelected_modeRegister (v : Word) : s.writeSelected 0x21 v = s.writeMode v := by simp [State.writeSelected]

theorem State.writeSelected_border (v : Word) : s.writeSelected 0x2C v = s.writeBorder v := by simp [State.writeSelected]

/-- A write at 0x40 and up is dropped, or runs the write rule of a register (40_register_access R113). -/
theorem Effect.writeHigh {s : State} {i : Instr} {a v : Word}
    (h : s.cfg.highWrite = .lowRegister → s.Selects i (a.setWidth 6) v) : Effect s i (s.writeHigh a v) := by
  obtain heq | ⟨hw, heq⟩ := s.writeHigh_cases a v
  · rw [heq]; exact .alike (.refl s)
  · rw [heq]; exact .selected (h hw)

/-- A row that captures without a fault moves the cursor within the table (42_tile_capture R172). -/
theorem execEvCaprow_effect {p : BitVec 4} {ack : Bool} {s t : State} {i : Instr} (h : execEvCaprow p ack s = .next t) :
    Effect s i t := by
  unfold execEvCaprow raiseFatal at h
  split at h
  · cases h
  · split at h
    · cases h
    · next hover =>
      cases h
      refine .captured (c := s.captureCursor ack) ?_ (by constructor <;> simp)
      unfold State.captureCursor
      cases hf : s.firstAfterStart with
      | true => simp
      | false =>
        cases ack with
        | false => simp
        | true => exact .inr (.inr ⟨rfl, by simpa [hf] using hover⟩)

/-- Every operation that completes has one of these effects. -/
theorem exec_effect {i : Instr} {s t : State} (h : exec i s = .next t) : Effect s i t := by
  cases i with
  | rdRMode n =>
    simp only [exec, execRdRMode] at h
    split at h
    · next hg => cases h; exact .modeRead hg (State.emit_alike _ _)
    · cases h; exact .alike (s.emit_alike _)
  | rdRReg | rdRShape | rdRAlias | peekR | rdS | peekS | peekT => cases h; exact .alike (s.emit_alike _)
  | wrRDe v n => cases h; exact .gated fun hg => s.writeSelected_de v ▸ .selected (.de hg)
  | wrRMode v n => cases h; exact .gated fun hg => s.writeSelected_modeRegister v ▸ .selected (.mode hg)
  | wrRBorder v n => cases h; exact .gated fun hg => s.writeSelected_border v ▸ .selected (.border hg)
  | wrRReg => cases h; exact .gated fun _ => .stored
  | wrRHigh => cases h; exact .gated fun hg => .writeHigh fun hw => .high hw hg
  | pokeR => cases h; exact .selected .poke
  | pokeRHigh => cases h; exact .writeHigh .pokeHigh
  | wrS => cases h; exact .gated fun _ => .shape
  | pokeS => cases h; exact .shape
  | wrT =>
    simp only [exec, execWrT, Host.Outcome.next.injEq] at h
    subst h
    split <;> exact .alike ⟨rfl, rfl, rfl, rfl, rfl, rfl, rfl⟩
  | evReset =>
    simp only [exec, execEvReset, Host.Outcome.next.injEq] at h
    rw [← h]
    exact .reset
  | evRender drop =>
    cases h
    refine .alike (.trans ?_ (State.sinkReport_alike _))
    split
    · exact s.renderFrame_alike drop
    · exact .refl s
  | evLatch => cases h; exact .latched
  | evCapstart =>
    cases h
    exact .captured (.inl rfl) (by constructor <;> simp)
  | evCaprow => exact execEvCaprow_effect h
  | evDeadline target => cases target <;> cases h <;> exact .alike ⟨rfl, rfl, rfl, rfl, rfl, rfl, rfl⟩
  | evIso => cases h; exact .alike ⟨rfl, rfl, rfl, rfl, rfl, rfl, rfl⟩
  | evColl => cases h; exact .stored

/-- What taking a transaction and every effect keep, every step keeps. -/
theorem step_keeps {P : State → Prop} (htaken : ∀ s rest i, P s → P (s.taken rest i))
    (heffect : ∀ {s i t}, P s → Effect s i t → P t) {s t : State} (hs : P s) (h : step s = .next t) : P t := by
  obtain ⟨-, rfl⟩ | ⟨x, rest, i, -, -, -, -, hexec⟩ := step_next h
  · exact hs
  · exact heffect (htaken s rest i hs) (exec_effect hexec)

/-! ## The registers stay masked (10_state R20) -/

theorem State.regsMasked_congr {s u : State} (hc : u.cfg = s.cfg) (hr : u.regs = s.regs) (hs : s.RegsMasked) :
    u.RegsMasked := fun a ha => by
  rw [State.masked_congr hc, State.reg_congr hr]
  exact hs a ha

/-- A masked word written to one register keeps the registers masked. -/
theorem State.regsMasked_of_write {s u : State} {a : RegAddr} {v : Word} (hc : u.cfg = s.cfg)
    (hr : ∀ b, u.reg b = if b = a then s.masked a v else s.reg b) (hs : s.RegsMasked) : u.RegsMasked := fun b hb => by
  rw [State.masked_congr hc, hr]
  split
  · next h => rw [h, s.masked_masked]
  · exact hs b hb

/-- After a reset every register but 0x20 holds a masked word, whatever it held before (70_reset_and_hazards R374). -/
theorem State.reset_regsMasked : s.zeroRegs.syntheticWrites.resetControl.RegsMasked := by
  refine State.regsMasked_congr (s := s.zeroRegs.syntheticWrites) (by simp) (by simp) fun a ha => ?_
  rw [State.masked_congr s.zeroRegs.syntheticWrites_cfg, State.syntheticWrites_reg, if_neg ha, State.masked_masked]

theorem Effect.regsMasked {s t : State} {i : Instr} (hs : s.RegsMasked) (h : Effect s i t) : t.RegsMasked := by
  cases h with
  | alike h => exact State.regsMasked_congr h.cfg h.regs hs
  | modeRead _ h => exact State.regsMasked_congr (by simp [h.cfg]) (by simp [h.regs]) hs
  | selected => exact State.regsMasked_of_write (s.writeSelected_cfg _ _) (s.writeSelected_reg _ _) hs
  | stored => exact State.regsMasked_of_write (s.store_cfg _ _) (s.store_reg _ _) hs
  | shape => exact State.regsMasked_congr (s.shapeWrite_cfg _ _) (s.shapeWrite_regs _ _) hs
  | latched => exact State.regsMasked_congr s.latchEnable_cfg s.latchEnable_regs hs
  | captured _ h => exact State.regsMasked_congr h.cfg h.regs hs
  | reset => exact s.reset_regsMasked

/-- Settles O8: masking is idempotent, so every store leaves a masked word, and no effect writes a register otherwise. -/
theorem registerMasksKept : Obligations.RegisterMasksKept := fun _ _ hs h =>
  step_keeps (P := State.RegsMasked) (fun _ _ _ hs => hs) Effect.regsMasked hs h

/-! ## Shape memory stays canonical (10_state R34) -/

theorem Effect.memCanonical {s t : State} {i : Instr} (hs : s.MemCanonical) (h : Effect s i t) : t.MemCanonical := by
  cases h with
  | shape => exact s.shapeWrite_wf hs _ _
  | alike h => rwa [State.MemCanonical, h.mem]
  | modeRead _ h => rwa [State.MemCanonical, h.mem, State.modeSet_mem]
  | captured _ h => rwa [State.MemCanonical, h.mem]
  | selected => rwa [State.MemCanonical, State.writeSelected_mem]
  | stored => rwa [State.MemCanonical, State.store_mem]
  | latched => exact hs
  | reset => simpa [State.MemCanonical] using hs

/-- Settles O9: only a shape write changes shape memory, and it keeps the canonical form. -/
theorem shapeMemoryFormKept : Obligations.ShapeMemoryFormKept := fun _ _ hs h =>
  step_keeps (P := State.MemCanonical) (fun _ _ _ hs => hs) Effect.memCanonical hs h

/-! ## The cursor stays aligned (10_state R36) -/

theorem Effect.cursorAligned {s t : State} {i : Instr} (hs : s.CursorAligned) (h : Effect s i t) : t.CursorAligned := by
  cases h with
  | captured hc h =>
    rw [State.CursorAligned, h.cursor]
    obtain ⟨hmod, hle⟩ := hs
    obtain rfl | rfl | ⟨rfl, hnext⟩ := hc
    · exact ⟨rfl, Nat.zero_le _⟩
    · exact ⟨hmod, hle⟩
    · exact ⟨by simpa using hmod, hnext⟩
  | reset => exact ⟨rfl, Nat.zero_le _⟩
  | alike h => rwa [State.CursorAligned, h.cursor]
  | modeRead _ h => rwa [State.CursorAligned, h.cursor, State.modeSet_cursor]
  | selected => rwa [State.CursorAligned, State.writeSelected_cursor]
  | stored => rwa [State.CursorAligned, State.store_cursor]
  | shape => rwa [State.CursorAligned, State.shapeWrite_cursor]
  | latched => exact hs

/-- Settles O10: a capture advances by 20 and faults rather than pass 220; the other events leave the cursor or clear it. -/
theorem cursorKeptAligned : Obligations.CursorKeptAligned := fun _ _ hs h =>
  step_keeps (P := State.CursorAligned) (fun _ _ _ hs => hs) Effect.cursorAligned hs h

/-! ## Who changes the mode (10_state R29) -/

/-- The operations that run the write rule of 0x21. -/
theorem State.Selects.mode_register {s : State} {i : Instr} {v : Word} {a : RegAddr} (h : s.Selects i a v) (ha : a = 0x21) :
    (∃ v, i = .pokeR 0x21 v) ∨ (∃ v n, i = .wrRMode v n ∧ s.honoured .reg n = true) ∨
      (s.cfg.highWrite = .lowRegister ∧ ∃ a v, a.setWidth 6 = 0x21#6 ∧
        (i = .pokeRHigh a v ∨ ∃ n, i = .wrRHigh a v n ∧ s.honoured .reg n = true)) := by
  cases h with
  | de => exact absurd ha (by decide)
  | border => exact absurd ha (by decide)
  | mode hg => exact .inr (.inl ⟨_, _, rfl, hg⟩)
  | poke => exact .inl ⟨_, by rw [ha]⟩
  | high hw hg => exact .inr (.inr ⟨hw, _, _, ha, .inr ⟨_, rfl, hg⟩⟩)
  | pokeHigh hw => exact .inr (.inr ⟨hw, _, _, ha, .inl rfl⟩)

/-- Settles O33: a read of 0x21 selects Color-Stack, the write rule of 0x21 and reset select Foreground/Background, and no other
effect reaches the mode. -/
theorem modeChangesOnlyAtModeRegister : Obligations.ModeChangesOnlyAtModeRegister := by
  intro i s t h hne
  cases exec_effect h with
  | modeRead hg h => exact .inl ⟨by simp [h.mode], _, rfl, hg⟩
  | selected hsel =>
    rw [State.writeSelected_mode] at hne ⊢
    split at hne
    · next ha => exact .inr ⟨if_pos ha, .inr (hsel.mode_register ha)⟩
    · exact absurd rfl hne
  | reset => exact .inr ⟨by simp [State.syntheticWrites_mode], .inl rfl⟩
  | alike h => exact absurd h.mode hne
  | captured _ h => exact absurd h.mode hne
  | stored => exact absurd (s.store_mode _ _) hne
  | shape => exact absurd (s.shapeWrite_mode _ _) hne
  | latched => exact absurd s.latchEnable_mode hne

/-! ## Who changes the enables (10_state R31) -/

/-- An operation other than `EV.LATCH` leaves the live enable, and clears no pending one. -/
theorem Effect.enables {s t : State} {i : Instr} (h : Effect s i t) :
    i = .evLatch ∨ (t.liveEnable = s.liveEnable ∧ (s.pendingEnable = true → t.pendingEnable = true)) := by
  cases h with
  | latched => exact .inl rfl
  | alike h => exact .inr ⟨h.liveEnable, fun hp => h.pendingEnable.trans hp⟩
  | modeRead _ h => exact .inr (by simp [h.liveEnable, h.pendingEnable])
  | selected =>
    refine .inr ⟨by rw [State.writeSelected_frame], fun hp => ?_⟩
    rw [State.writeSelected_pendingEnable, hp, Bool.true_or]
  | stored => exact .inr (by simp)
  | shape => exact .inr (by simp)
  | captured _ h => exact .inr ⟨h.liveEnable, fun hp => h.pendingEnable.trans hp⟩
  | reset => exact .inr (by simp [State.syntheticWrites_pendingEnable])

/-- Settles O34: of all effects only the latch moves the live enable or clears the pending one. -/
theorem enableChangesOnlyAtLatch : Obligations.EnableChangesOnlyAtLatch := by
  intro i s t h hchange
  obtain hlatch | ⟨hlive, hpending⟩ := (exec_effect h).enables
  · exact hlatch
  · obtain hne | ⟨hp, hclear⟩ := hchange
    · exact absurd hlive hne
    · simp [hpending hp] at hclear

/-! ## The state right after reset (10_state R43) -/

/-- All-ones through any reference mask is all-ones on the implemented width (10_state R23). -/
theorem referenceMask_allOnes (n : Nat) : (0xFFFF &&& (referenceMask n).1) ||| (referenceMask n).2 = 0x3FFF := by
  unfold referenceMask
  repeat' split
  all_goals rfl

theorem State.masked_reference (hs : s.cfg = Config.reference) (a : RegAddr) : s.masked a 0xFFFF = 0x3FFF := by
  simpa [State.masked, State.andMask, State.orMask, hs, Config.reference, a.isLt] using referenceMask_allOnes a.toNat

theorem State.zeroRegs_reg (a : RegAddr) : s.zeroRegs.reg a = 0 := by simp [State.reg, a.isLt]

theorem State.construction_reg (a : RegAddr) : State.construction.reg a = 0 := State.construction.zeroRegs_reg a

theorem State.reset_reg (a : RegAddr) : State.reset.reg a = if a = 0x20 then 0 else 0x3FFF := by
  have haddr : a.toNat = 0x20 ↔ a = 0x20 := BitVec.toNat_inj (y := 0x20)
  have hword : (0xFFFF &&& (entry Config.reference.masks a.toNat).1) ||| (entry Config.reference.masks a.toNat).2 = 0x3FFF :=
    State.reset.masked_reference rfl a
  rw [State.reg, show State.reset.regs = resetRegs Config.reference from rfl, resetRegs, entry_tab, if_pos a.isLt, hword]
  simp only [haddr]

/-- Settles O11: every register but 0x20 holds a word already masked, no cell of shape memory is listed, the cursor is 0. -/
theorem invariantsHoldAtReset : Obligations.InvariantsHoldAtReset := by
  refine ⟨fun a ha => ?_, rfl, rfl, Nat.zero_le _⟩
  rw [State.reset_reg, if_neg ha, ← State.reset.masked_reference rfl a, State.masked_masked]

/-! ## `EV.RESET` of the construction state (70_reset_and_hazards R370) -/

/-- `EV.RESET` changes the word of every register it writes. -/
theorem construction_storeChanges (a : RegAddr) : State.construction.zeroRegs.storeChanges a 0xFFFF = true := by
  rw [State.storeChanges, State.masked_reference _ rfl, State.zeroRegs_reg]
  rfl

theorem construction_syntheticWrites_regs : State.construction.zeroRegs.syntheticWrites.regs = State.reset.regs := by
  refine table_ext fun n hn => ?_
  have hreg : State.construction.zeroRegs.syntheticWrites.reg (BitVec.ofNat 6 n) = State.reset.reg (BitVec.ofNat 6 n) := by
    rw [State.syntheticWrites_reg, State.reset_reg, State.masked_reference _ rfl, State.zeroRegs_reg]
  simpa [State.reg, Nat.mod_eq_of_lt hn] using hreg

theorem construction_syntheticWrites_regDirty : State.construction.zeroRegs.syntheticWrites.regDirty = true := by
  rw [State.syntheticWrites_regDirty, Bool.or_eq_true, List.any_eq_true]
  exact .inr ⟨0, (mem_syntheticAddrs 0).mpr (by decide), construction_storeChanges 0⟩

theorem construction_syntheticWrites_out : State.construction.zeroRegs.syntheticWrites.out = [.borderColor 0xF] := by
  rw [State.syntheticWrites_out, if_pos (construction_storeChanges 0x2C), State.masked_reference _ rfl]
  rfl

theorem exec_evReset_construction :
    exec .evReset State.construction = .next { State.reset with out := [.borderColor 0xF] } := by
  rw [exec, execEvReset, State.syntheticWrites_frame, construction_syntheticWrites_regs,
    construction_syntheticWrites_regDirty, State.syntheticWrites_pendingEnable, State.syntheticWrites_mode,
    State.syntheticWrites_tileDirty, construction_syntheticWrites_out]
  rfl

/-- Settles O13: the synthetic writes leave 0x3FFF in every register but 0x20, and announce the border colour. -/
theorem resetStateIsResetEvent : Obligations.ResetStateIsResetEvent :=
  ⟨exec_evReset_construction, State.construction_reg, fun a ha => by rw [State.reset_reg, if_neg ha],
    by rw [State.reset_reg, if_pos rfl], by decide, rfl, rfl, rfl, rfl, rfl, rfl, rfl⟩

end Sys2Proof.Machine
end

section
/-! PROOF. What a step does at the ports (20_memory R70): first what any operation leaves of the inbox, the time and the outputs,
then one step; after that which operation a transaction selects in time and phase order (00_scope R12, 30_encoding R84). -/

namespace Sys2Proof.Machine

variable (s : State)

/-! ## What an operation does at the ports -/

/-- `t` has the inbox and the time of `s`, and has handed out what `s` had, and perhaps more after it. -/
structure State.Extends (s t : State) : Prop where
  inbox : t.inbox = s.inbox
  lastTime : t.lastTime = s.lastTime
  out : s.out <+: t.out

theorem State.Extends.refl : s.Extends s := ⟨rfl, rfl, List.prefix_rfl⟩

theorem State.Extends.trans {s t u : State} (h : s.Extends t) (k : t.Extends u) : s.Extends u :=
  ⟨k.inbox.trans h.inbox, k.lastTime.trans h.lastTime, h.out.trans k.out⟩

/-- An update that hands nothing out. -/
theorem State.Extends.silent {s t : State} (hinbox : t.inbox = s.inbox) (htime : t.lastTime = s.lastTime)
    (hout : t.out = s.out) : s.Extends t :=
  ⟨hinbox, htime, hout ▸ List.prefix_rfl⟩

/-- A guarded update: the gate of the host writes, the video enable of the events. -/
theorem State.Extends.gated {c : Prop} [Decidable c] {s u : State} (hu : s.Extends u) :
    s.Extends (if c then u else s) := by
  split
  · exact hu
  · exact .refl s

theorem State.emit_extends (o : Output) : s.Extends (s.emit o) := ⟨rfl, rfl, List.prefix_append _ _⟩

theorem State.store_extends (a : RegAddr) (v : Word) : s.Extends (s.store a v) := .silent (by simp) (by simp) (by simp)

theorem State.modeSet_extends (m : Mode) : s.Extends (s.modeSet m) := .silent (by simp) (by simp) (by simp)

theorem State.shapeWrite_extends (a v : Word) : s.Extends (s.shapeWrite a v) := .silent (by simp) (by simp) (by simp)

theorem State.requestBus_extends (k : BusRequest) : s.Extends (s.requestBus k) := .gated (s.emit_extends _)

theorem State.writeSelected_extends (a : RegAddr) (v : Word) : s.Extends (s.writeSelected a v) where
  inbox := by rw [State.writeSelected_frame]
  lastTime := by rw [State.writeSelected_frame]
  out := s.writeSelected_out a v ▸ List.prefix_append _ _

theorem State.writeHigh_extends (a v : Word) : s.Extends (s.writeHigh a v) := by
  obtain h | ⟨-, h⟩ := s.writeHigh_cases a v
  · rw [h]; exact .refl s
  · rw [h]; exact s.writeSelected_extends _ _

theorem State.syntheticWrites_extends : s.Extends s.syntheticWrites :=
  s.syntheticWrites_keeps (P := s.Extends) (.refl s) fun u a v hu => hu.trans (u.writeSelected_extends a v)

/-- A reset empties no port (70_reset_and_hazards R371). -/
theorem State.reset_extends : s.Extends s.zeroRegs.syntheticWrites.resetControl :=
  have hzero : s.Extends s.zeroRegs := .silent rfl rfl rfl
  (hzero.trans (State.syntheticWrites_extends _)).trans (.silent (by simp) (by simp) (by simp))

theorem State.renderPlanes_extends (drop : Bool) : s.Extends (s.renderPlanes drop) := by
  cases drop <;> exact .silent (by simp [State.renderPlanes]) (by simp [State.renderPlanes]) (by simp [State.renderPlanes])

theorem State.showFrame_extends : s.Extends s.showFrame :=
  have hshown : s.Extends s.seedCells.mergeFrame.unpack := .silent (by simp) (by simp) (by simp)
  hshown.trans (State.emit_extends _ _)

/-- A frame is handed over after what came before it (46_edge_merge_unpack R320). -/
theorem State.renderFrame_extends (drop : Bool) : s.Extends (s.renderFrame drop) := by
  have hplanes := s.renderPlanes_extends drop
  cases drop with
  | true => exact hplanes.trans (State.emit_extends _ _)
  | false => exact (hplanes.trans (State.showFrame_extends _)).trans (State.emit_extends _ _)

/-- The report to the sink (46_edge_merge_unpack R321). -/
theorem State.sinkReport_extends : s.Extends s.sinkReport :=
  ((s.emit_extends _).trans (State.emit_extends _ _)).trans (.silent rfl rfl rfl)

theorem execEvCaprow_extends {p : BitVec 4} {ack : Bool} {s t : State} (h : execEvCaprow p ack s = .next t) :
    s.Extends t := by
  unfold execEvCaprow raiseFatal at h
  split at h
  · cases h
  · split at h
    · cases h
    · cases h
      refine .trans ?_ (State.requestBus_extends _ _)
      exact .silent rfl rfl rfl

/-- No operation takes a transaction, notes a time or withdraws an output. -/
theorem exec_extends {i : Instr} {s t : State} (h : exec i s = .next t) : s.Extends t := by
  cases i with
  | rdRMode n =>
    simp only [exec, execRdRMode] at h
    split at h
    · cases h; exact (s.modeSet_extends .cs).trans (State.emit_extends _ _)
    · cases h; exact s.emit_extends _
  | rdRReg | rdRShape | rdRAlias | peekR | rdS | peekS | peekT => cases h; exact s.emit_extends _
  | wrRDe v => cases h; exact .gated (s.writeSelected_de v ▸ s.writeSelected_extends _ _)
  | wrRMode v => cases h; exact .gated (s.writeSelected_modeRegister v ▸ s.writeSelected_extends _ _)
  | wrRBorder v => cases h; exact .gated (s.writeSelected_border v ▸ s.writeSelected_extends _ _)
  | wrRReg a v => cases h; exact .gated (s.store_extends a v)
  | wrRHigh a v => cases h; exact .gated (s.writeHigh_extends a v)
  | wrS a v => cases h; exact .gated (s.shapeWrite_extends a v)
  | pokeR a v => cases h; exact s.writeSelected_extends a v
  | pokeRHigh a v => cases h; exact s.writeHigh_extends a v
  | pokeS a v => cases h; exact s.shapeWrite_extends a v
  | wrT =>
    simp only [exec, execWrT, Host.Outcome.next.injEq] at h
    subst h
    split <;> exact .silent rfl rfl rfl
  | evReset =>
    simp only [exec, execEvReset, Host.Outcome.next.injEq] at h
    exact h ▸ s.reset_extends
  | evRender drop => cases h; exact .trans (.gated (s.renderFrame_extends drop)) (State.sinkReport_extends _)
  | evLatch => cases h; exact .silent rfl rfl rfl
  | evCapstart =>
    cases h
    refine .trans ?_ (State.requestBus_extends _ _)
    exact .silent rfl rfl rfl
  | evCaprow => exact execEvCaprow_extends h
  | evDeadline target => cases target <;> cases h <;> exact .silent rfl rfl rfl
  | evIso => cases h; exact .silent rfl rfl rfl
  | evColl => cases h; exact s.store_extends _ _

/-! ## One step at the ports -/

/-- An operation on time does not turn time back (00_scope R12). -/
theorem State.lastTime_le_timeAfter {s : State} {i : Instr} (h : s.timely i = true) : s.lastTime ≤ s.timeAfter i :=
  of_decide_eq_true h

theorem step_of_inbox_nil {s : State} (h : s.inbox = []) : step s = .next s := by
  unfold step
  rw [h]

/-- Settles O7: a step takes the oldest transaction, notes its time when that is no earlier, and executes an operation, which
leaves the inbox and the time and only adds outputs. -/
theorem stepConsumesOneTransaction : Obligations.StepConsumesOneTransaction := by
  refine ⟨fun _ => step_of_inbox_nil, fun s t h => ?_⟩
  obtain ⟨hinbox, rfl⟩ | ⟨x, rest, i, hinbox, -, htimely, -, hexec⟩ := step_next h
  · exact ⟨by rw [hinbox, List.tail_nil], ⟨[], (List.append_nil _).symm⟩, le_rfl⟩
  · obtain ⟨hrest, htime, more, hmore⟩ := exec_extends hexec
    exact ⟨by rw [hinbox, hrest, State.taken_inbox, List.tail_cons], ⟨more, hmore.symm⟩,
      htime ▸ State.lastTime_le_timeAfter htimely⟩

/-! ## A step by the transaction it takes -/

/-- What a step answers for a transaction that selects operation `i`. -/
theorem step_of_decode {s : State} {x : Txn} {rest : List Txn} {i : Instr} (hinbox : s.inbox = x :: rest)
    (hdec : decode x = .ok i) :
    step s =
      if s.timely i then
        if s.inOrder i then exec i (s.taken rest i) else refuseUnlessFault (exec i (s.taken rest i))
      else .refused .timeReversed := by
  unfold step
  rw [hinbox]
  simp only [hdec]

/-! ## Which transactions carry a time that is tested (60_exceptions R348) -/

theorem kindOf_access (b : BitVec 2) : kindOf b = .read ∨ kindOf b = .write ↔ b = 0 ∨ b = 1 := by
  revert b; decide

theorem winOf_access (b : BitVec 2) : winOf b = .reg ∨ winOf b = .shape ↔ b = 0 ∨ b = 1 := by
  revert b; decide

theorem hostTime_decodeRegRead (a : Word) (t : Nat) : hostTime (decodeRegRead a t) = some t := by
  unfold decodeRegRead
  repeat' split
  all_goals rfl

theorem hostTime_decodeRegWrite (a v : Word) (t : Nat) : hostTime (decodeRegWrite a v t) = some t := by
  unfold decodeRegWrite
  repeat' split
  all_goals rfl

theorem hostTime_decodeRegPoke (a v : Word) : hostTime (decodeRegPoke a v) = none := by
  unfold decodeRegPoke
  split <;> rfl

theorem hostTime_of_decodeEvent {a data : Word} {tv : Nat} {i : Instr} (h : decodeEvent a data tv = .ok i) :
    hostTime i = none := by
  unfold decodeEvent at h
  repeat' split at h
  all_goals cases h
  all_goals rfl

/-- The host reads and writes of the register window and the shape window carry their T, no other operation does. -/
theorem hostTime_of_decode {x : Txn} {i : Instr} (h : decode x = .ok i) :
    hostTime i =
      if (x.word.extractLsb' 18 2 = 0 ∨ x.word.extractLsb' 18 2 = 1) ∧
        (x.word.extractLsb' 16 2 = 0 ∨ x.word.extractLsb' 16 2 = 1) then some x.t else none := by
  simp only [← kindOf_access (x.word.extractLsb' 18 2), ← winOf_access (x.word.extractLsb' 16 2)]
  unfold decode wordKind wordWin at h
  generalize kindOf (x.word.extractLsb' 18 2) = k at h ⊢
  generalize winOf (x.word.extractLsb' 16 2) = w at h ⊢
  cases w with
  | reg =>
    cases k with
    | read => cases h; exact hostTime_decodeRegRead _ _
    | write => cases h; exact hostTime_decodeRegWrite _ _ _
    | peek => cases h; rfl
    | poke => cases h; exact hostTime_decodeRegPoke _ _
  | shape => cases k <;> cases h <;> rfl
  | tile =>
    cases k with
    | read | poke => cases h
    | write | peek => cases h; rfl
  | event =>
    cases k with
    | read => exact hostTime_of_decodeEvent h
    | write | peek | poke => cases h

/-! ## Which phase actions are due (30_encoding R84) -/

theorem phaseFollows_render (p : BitVec 4) : phaseFollows p 0 = true ↔ p = 14 ∨ p = 0 := by revert p; decide

theorem phaseFollows_latch (p : BitVec 4) : phaseFollows p 1 = true ↔ p = 0 := by revert p; decide

theorem phaseFollows_capstart (p : BitVec 4) : phaseFollows p 2 = true ↔ p = 1 ∨ p = 14 := by revert p; decide

theorem phaseFollows_caprow {q : BitVec 4} (hq : 3 ≤ q.toNat) (p : BitVec 4) : phaseFollows p q = true ↔ p = q - 1 := by
  revert p q; decide

/-- The order of the phase actions, each by the phases it may follow. -/
def State.Due (s : State) : Instr → Prop
  | .evRender _ => s.lastPhase = none ∨ s.lastPhase = some 14 ∨ s.lastPhase = some 0
  | .evLatch => s.lastPhase = none ∨ s.lastPhase = some 0
  | .evCapstart => s.lastPhase = none ∨ s.lastPhase = some 1 ∨ s.lastPhase = some 14
  | .evCaprow p _ => s.lastPhase = none ∨ 3 ≤ p.toNat ∧ s.lastPhase = some (p - 1)
  | _ => True

/-- A phase action keeps the order when none came since the reset, or its phase follows that of the last one. -/
theorem State.inOrder_iff_of_phase {i : Instr} {q : BitVec 4} (h : eventPhase i = some q) :
    s.inOrder i = true ↔ s.lastPhase = none ∨ ∃ p, s.lastPhase = some p ∧ phaseFollows p q = true := by
  unfold State.inOrder
  cases s.lastPhase <;> simp [h]

/-- A capture of a phase below 3 faults, whenever it comes (42_tile_capture R172). -/
theorem exec_evCaprow_lowPhase {p : BitVec 4} (hp : p.toNat < 3) (ack : Bool) (s : State) :
    exec (.evCaprow p ack) s = .fault (.badPhase p) :=
  if_pos (.inl hp)

/-- The model's test of the order is `State.Due`, save for captures of a phase below 3, which it leaves to their fault. -/
theorem State.due_iff_inOrder_or_fault (i : Instr) :
    (s.Due i ↔ s.inOrder i = true) ∨ ∃ f, ∀ u, exec i u = .fault f := by
  cases i with
  | evRender =>
    rw [s.inOrder_iff_of_phase rfl]
    simp only [State.Due, phaseFollows_render, and_or_left, exists_or, exists_eq_right, true_or]
  | evLatch =>
    rw [s.inOrder_iff_of_phase rfl]
    simp only [State.Due, phaseFollows_latch, exists_eq_right, true_or]
  | evCapstart =>
    rw [s.inOrder_iff_of_phase rfl]
    simp only [State.Due, phaseFollows_capstart, and_or_left, exists_or, exists_eq_right, true_or]
  | evCaprow p ack =>
    by_cases hp : 3 ≤ p.toNat
    · rw [s.inOrder_iff_of_phase rfl]
      simp only [State.Due, phaseFollows_caprow hp, hp, true_and, exists_eq_right, true_or]
    · exact .inr ⟨_, exec_evCaprow_lowPhase (Nat.lt_of_not_le hp) ack⟩
  | _ => exact .inl (iff_of_true trivial (s.inOrder_of_none rfl))

/-! ## A step runs the operation it takes, in time and phase order -/

section
variable {s : State} {x : Txn} {rest : List Txn} {i : Instr}

theorem step_of_not_timely (hinbox : s.inbox = x :: rest) (hdec : decode x = .ok i) (ht : s.timely i = false) :
    step s = .refused .timeReversed := by
  rw [step_of_decode hinbox hdec, ht, if_neg Bool.false_ne_true]

theorem step_of_due (hinbox : s.inbox = x :: rest) (hdec : decode x = .ok i) (ht : s.timely i = true) (hdue : s.Due i) :
    step s = exec i (s.taken rest i) := by
  rw [step_of_decode hinbox hdec, if_pos ht]
  obtain horder | ⟨f, hf⟩ := s.due_iff_inOrder_or_fault i
  · rw [if_pos (horder.mp hdue)]
  · rw [hf, refuseUnlessFault, ite_self]

/-- A phase action that is not due is refused, unless it faults (93_implementation_defined U24, U1, U2). -/
theorem step_of_not_due (hinbox : s.inbox = x :: rest) (hdec : decode x = .ok i) (ht : s.timely i = true)
    (hdue : ¬ s.Due i) : step s = refuseUnlessFault (exec i (s.taken rest i)) := by
  rw [step_of_decode hinbox hdec, if_pos ht]
  obtain horder | ⟨f, hf⟩ := s.due_iff_inOrder_or_fault i
  · rw [if_neg (horder.not.mp hdue)]
  · rw [hf, refuseUnlessFault, ite_self]

end

/-- Settles O6: the decoder gives exactly the timed words a host time, `State.Due` is the order the model tests, and what is not
due runs into `refuseUnlessFault`. -/
theorem stepRunsDecodedOperation : Obligations.StepRunsDecodedOperation := by
  intro s x rest i hinbox hdec timed due phase u
  have hhost : hostTime i = if timed then some x.t else none := hostTime_of_decode hdec
  have htimely : s.timely i = true ↔ (timed → s.lastTime ≤ x.t) := by
    by_cases hx : timed <;> simp [State.timely, State.timeAfter, hhost, hx]
  have hphase : phase = s.phaseAfter i := by cases i <;> rfl
  have hu : u = s.taken rest i := by
    have htime : (if timed then x.t else s.lastTime) = s.timeAfter i := by
      by_cases hx : timed <;> simp [State.timeAfter, hhost, hx]
    simp only [u, hphase, htime, State.taken_eq]
  rw [hu]
  refine ⟨fun hx hlt => ?_, fun hle => ?_⟩
  · have hlate : ¬ (timed → s.lastTime ≤ x.t) := fun hle => absurd (hle hx) (Nat.not_le.mpr hlt)
    exact step_of_not_timely hinbox hdec (Bool.eq_false_iff.mpr (htimely.not.mpr hlate))
  · have ht := htimely.mpr hle
    refine ⟨step_of_due hinbox hdec ht, fun hdue => ?_⟩
    rw [step_of_not_due hinbox hdec ht hdue]
    exact ⟨fun f hf => by rw [hf, refuseUnlessFault], fun t hnext => by rw [hnext, refuseUnlessFault]⟩

end Sys2Proof.Machine
end

section
/-! PROOF. Encoding and decoding of transactions (30_encoding R80 to R85): first the fields of a transaction word and of an event's
ADDR, then what is decoded from each window, the encoding read back, the ordered table by window, and the reserved words. -/

namespace Sys2Proof

/-! ## The fields of a transaction word (30_encoding R80) -/

@[simp] theorem kindOf_kindBits (k : Kind) : kindOf (kindBits k) = k := by cases k <;> rfl

@[simp] theorem winOf_winBits (w : Win) : winOf (winBits w) = w := by cases w <;> rfl

@[simp] theorem kindBits_kindOf (b : BitVec 2) : kindBits (kindOf b) = b := by revert b; decide

@[simp] theorem winBits_winOf (b : BitVec 2) : winBits (winOf b) = b := by revert b; decide

theorem kindOf_eq_read_iff (b : BitVec 2) : kindOf b = .read ↔ b = 0 := by revert b; decide

/-- The fields of a word that has KIND `k`, WIN `w` and ADDR `a`. -/
@[simp] theorem wordAddr_wordOf (k : Kind) (w : Win) (a : Word) : wordAddr (wordOf k w a) = a :=
  BitVec.extractLsb'_append_eq_right

@[simp] theorem wordWin_wordOf (k : Kind) (w : Win) (a : Word) : wordWin (wordOf k w a) = w := by
  have hbits : (wordOf k w a).extractLsb' 16 2 = winBits w :=
    (BitVec.extractLsb'_append_eq_of_le (by decide)).trans BitVec.extractLsb'_append_eq_right
  rw [wordWin, hbits, winOf_winBits]

@[simp] theorem wordKind_wordOf (k : Kind) (w : Win) (a : Word) : wordKind (wordOf k w a) = k := by
  have hbits : (wordOf k w a).extractLsb' 18 2 = kindBits k :=
    (BitVec.extractLsb'_append_eq_of_le (by decide)).trans BitVec.extractLsb'_append_eq_left
  rw [wordKind, hbits, kindOf_kindBits]

/-- A bit vector is its upper and its lower part. -/
theorem extractLsb'_append_below {m n : Nat} (x : BitVec (m + n)) : x.extractLsb' n m ++ x.extractLsb' 0 n = x :=
  (BitVec.extractLsb'_append_extractLsb'_eq_extractLsb' n.zero_add.symm).trans BitVec.extractLsb'_eq_self

/-- A transaction word is its three fields. -/
theorem wordOf_fields (w : BitVec 20) : wordOf (wordKind w) (wordWin w) (wordAddr w) = w := by
  have hfields : wordOf (wordKind w) (wordWin w) (wordAddr w) =
      w.extractLsb' 18 2 ++ w.extractLsb' 16 2 ++ w.extractLsb' 0 16 := by
    rw [wordOf, wordKind, wordWin, kindBits_kindOf, winBits_winOf, wordAddr]
  have htop : w.extractLsb' 18 2 ++ w.extractLsb' 16 2 = w.extractLsb' 16 4 :=
    BitVec.extractLsb'_append_extractLsb'_eq_extractLsb' rfl
  rw [hfields, htop]
  exact extractLsb'_append_below (m := 4) (n := 16) w

/-- A field within ADDR has the same bits in the word. -/
theorem extractLsb'_wordAddr (w : BitVec 20) {start len : Nat} (h : start + len ≤ 16) :
    (wordAddr w).extractLsb' start len = w.extractLsb' start len := by
  conv_rhs => rw [← wordOf_fields w, wordOf]
  exact (BitVec.extractLsb'_append_eq_of_add_le h).symm

/-! ## The fields of an event's ADDR (30_encoding R81) -/

@[simp] theorem extractLsb'_code_eventAddr (code : BitVec 4) (args : BitVec 12) :
    (eventAddr code args).extractLsb' 12 4 = code :=
  BitVec.extractLsb'_append_eq_left

/-- An argument field of an event is read from its argument bits. -/
theorem extractLsb'_eventAddr (code : BitVec 4) (args : BitVec 12) {start len : Nat} (h : start + len ≤ 12) :
    (eventAddr code args).extractLsb' start len = args.extractLsb' start len :=
  BitVec.extractLsb'_append_eq_of_add_le h

theorem getLsbD_eventAddr (code : BitVec 4) (args : BitVec 12) {n : Nat} (h : n < 12) :
    (eventAddr code args).getLsbD n = args.getLsbD n := by
  rw [eventAddr, BitVec.getLsbD_append, if_pos h]

/-- An event's ADDR is its code and its argument bits. -/
theorem eventAddr_fields (a : Word) : eventAddr (a.extractLsb' 12 4) (a.extractLsb' 0 12) = a :=
  extractLsb'_append_below (m := 4) (n := 12) a

@[simp] theorem valueKindOf_valueKindBits (vk : ValueKind) : valueKindOf (valueKindBits vk) = some vk := by
  cases vk <;> rfl

/-- The value kind 11 is the reserved one (30_encoding R85). -/
theorem valueKindOf_eq_none_iff (b : BitVec 2) : valueKindOf b = none ↔ b = 3 := by revert b; decide

@[simp] theorem gateOf_gateBit (g : Gate) : gateOf (gateBit g) = g := by cases g <;> rfl

/-! ## What each window decodes to (30_encoding R83) -/

theorem decode_regRead (a d : Word) (t tv : Nat) :
    decode ⟨wordOf .read .reg a, d, t, tv⟩ = .ok (decodeRegRead a t) := by
  simp only [decode, wordWin_wordOf, wordKind_wordOf, wordAddr_wordOf]

theorem decode_regWrite (a d : Word) (t tv : Nat) :
    decode ⟨wordOf .write .reg a, d, t, tv⟩ = .ok (decodeRegWrite a d t) := by
  simp only [decode, wordWin_wordOf, wordKind_wordOf, wordAddr_wordOf]

theorem decode_regPoke (a d : Word) (t tv : Nat) :
    decode ⟨wordOf .poke .reg a, d, t, tv⟩ = .ok (decodeRegPoke a d) := by
  simp only [decode, wordWin_wordOf, wordKind_wordOf, wordAddr_wordOf]

theorem decode_event (a d : Word) (t tv : Nat) :
    decode ⟨wordOf .read .event a, d, t, tv⟩ = decodeEvent a d tv := by
  simp only [decode, wordWin_wordOf, wordKind_wordOf, wordAddr_wordOf]

/-! ## The encoding read back -/

theorem decodeRegRead_eq_rdRReg {a : RegAddr} (h : a ≠ 0x21) (t : Nat) : decodeRegRead (a.setWidth 16) t = .rdRReg a t := by
  have hmode : a.setWidth 16 ≠ 0x0021 := by bv_omega
  have hreg : (a.setWidth 16).toNat < 0x40 := by bv_omega
  rw [decodeRegRead, if_neg hmode, if_pos hreg, BitVec.setWidth_setWidth_of_le _ (by decide), BitVec.setWidth_eq]

theorem decodeRegRead_eq_rdRShape {a : BitVec 14} (h : 0x40 ≤ a.toNat) (t : Nat) :
    decodeRegRead (a.setWidth 16) t = .rdRShape a t := by
  have hmode : a.setWidth 16 ≠ 0x0021 := by bv_omega
  have hreg : ¬ (a.setWidth 16).toNat < 0x40 := by bv_omega
  have hshape : (a.setWidth 16).toNat < 0x4000 := by bv_omega
  rw [decodeRegRead, if_neg hmode, if_neg hreg, if_pos hshape, BitVec.setWidth_setWidth_of_le _ (by decide),
    BitVec.setWidth_eq]

theorem decodeRegRead_eq_rdRAlias {a : Word} (h : 0x4000 ≤ a.toNat) (t : Nat) : decodeRegRead a t = .rdRAlias a t := by
  have hmode : a ≠ 0x0021 := by bv_omega
  have hreg : ¬ a.toNat < 0x40 := by omega
  rw [decodeRegRead, if_neg hmode, if_neg hreg, if_neg (Nat.not_lt.mpr h)]

theorem decodeRegWrite_eq_wrRReg {a : RegAddr} (hde : a ≠ 0x20) (hmode : a ≠ 0x21) (hborder : a ≠ 0x2C) (v : Word) (t : Nat) :
    decodeRegWrite (a.setWidth 16) v t = .wrRReg a v t := by
  have hde' : a.setWidth 16 ≠ 0x0020 := by bv_omega
  have hmode' : a.setWidth 16 ≠ 0x0021 := by bv_omega
  have hborder' : a.setWidth 16 ≠ 0x002C := by bv_omega
  have hreg : (a.setWidth 16).toNat < 0x40 := by bv_omega
  rw [decodeRegWrite, if_neg hde', if_neg hmode', if_neg hborder', if_pos hreg,
    BitVec.setWidth_setWidth_of_le _ (by decide), BitVec.setWidth_eq]

theorem decodeRegWrite_eq_wrRHigh {a : Word} (h : 0x40 ≤ a.toNat) (v : Word) (t : Nat) :
    decodeRegWrite a v t = .wrRHigh a v t := by
  have hde : a ≠ 0x0020 := by bv_omega
  have hmode : a ≠ 0x0021 := by bv_omega
  have hborder : a ≠ 0x002C := by bv_omega
  rw [decodeRegWrite, if_neg hde, if_neg hmode, if_neg hborder, if_neg (Nat.not_lt.mpr h)]

theorem decodeRegPoke_eq_pokeR (a : RegAddr) (v : Word) : decodeRegPoke (a.setWidth 16) v = .pokeR a v := by
  have hreg : (a.setWidth 16).toNat < 0x40 := by bv_omega
  rw [decodeRegPoke, if_pos hreg, BitVec.setWidth_setWidth_of_le _ (by decide), BitVec.setWidth_eq]

theorem decodeRegPoke_eq_pokeRHigh {a : Word} (h : 0x40 ≤ a.toNat) (v : Word) : decodeRegPoke a v = .pokeRHigh a v :=
  if_neg (Nat.not_lt.mpr h)

theorem decodeEvent_render (drop : Bool) (d : Word) (tv : Nat) :
    decodeEvent (eventAddr 1 (0#11 ++ BitVec.ofBool drop)) d tv = .ok (.evRender drop) := by
  cases drop <;> rfl

theorem decodeEvent_caprow (p : BitVec 4) (ack : Bool) (d : Word) (tv : Nat) :
    decodeEvent (eventAddr 4 (0#3 ++ BitVec.ofBool ack ++ 0#4 ++ p)) d tv = .ok (.evCaprow p ack) := by
  have hp : (eventAddr 4 (0#3 ++ BitVec.ofBool ack ++ 0#4 ++ p)).extractLsb' 0 4 = p :=
    (extractLsb'_eventAddr _ _ (by decide)).trans BitVec.extractLsb'_append_eq_right
  have hack : (eventAddr 4 (0#3 ++ BitVec.ofBool ack ++ 0#4 ++ p)).getLsbD 8 = ack := by
    rw [getLsbD_eventAddr _ _ (by decide)]
    simp only [BitVec.getLsbD_append]
    cases ack <;> rfl
  simp only [decodeEvent, extractLsb'_code_eventAddr, hp, hack]
  rfl

theorem decodeEvent_deadline (g : Gate) (vk : ValueKind) (d : Word) (tv : Nat) :
    decodeEvent (eventAddr 5 (0#9 ++ valueKindBits vk ++ BitVec.ofBool (gateBit g))) d tv = .ok (.evDeadline g vk tv) := by
  cases g <;> cases vk <;> rfl

theorem decodeEvent_iso (vk : ValueKind) (d : Word) (tv : Nat) :
    decodeEvent (eventAddr 6 (0#9 ++ valueKindBits vk ++ 0#1)) d tv = .ok (.evIso vk tv) := by
  cases vk <;> rfl

theorem decodeEvent_coll (j : BitVec 3) (d : Word) (tv : Nat) :
    decodeEvent (eventAddr 7 (0#9 ++ j)) d tv = .ok (.evColl j d) := by
  have hj : (eventAddr 7 (0#9 ++ j)).extractLsb' 0 3 = j :=
    (extractLsb'_eventAddr _ _ (by decide)).trans BitVec.extractLsb'_append_eq_right
  simp only [decodeEvent, extractLsb'_code_eventAddr, hj]
  rfl

/-- The decoder reads back what the encoder writes (30_encoding R80 to R83): the fields of the word by window, then the operands. -/
theorem decode_encode {i : Instr} (h : WellFormed i = true) : decode (encode i) = .ok i := by
  cases i with
  | rdRMode t => exact decode_regRead 0x0021 0 t 0
  | rdRReg a t =>
    have ha : a ≠ 0x21 := by simpa [WellFormed] using h
    exact (decode_regRead ..).trans (congrArg _ (decodeRegRead_eq_rdRReg ha t))
  | rdRShape a t => exact (decode_regRead ..).trans (congrArg _ (decodeRegRead_eq_rdRShape (of_decide_eq_true h) t))
  | rdRAlias a t => exact (decode_regRead ..).trans (congrArg _ (decodeRegRead_eq_rdRAlias (of_decide_eq_true h) t))
  | wrRDe v t => exact decode_regWrite 0x0020 v t 0
  | wrRMode v t => exact decode_regWrite 0x0021 v t 0
  | wrRBorder v t => exact decode_regWrite 0x002C v t 0
  | wrRReg a v t =>
    obtain ⟨⟨hde, hmode⟩, hborder⟩ : (a ≠ 0x20 ∧ a ≠ 0x21) ∧ a ≠ 0x2C := by simpa [WellFormed] using h
    exact (decode_regWrite ..).trans (congrArg _ (decodeRegWrite_eq_wrRReg hde hmode hborder v t))
  | wrRHigh a v t => exact (decode_regWrite ..).trans (congrArg _ (decodeRegWrite_eq_wrRHigh (of_decide_eq_true h) v t))
  | pokeR a v => exact (decode_regPoke ..).trans (congrArg _ (decodeRegPoke_eq_pokeR a v))
  | pokeRHigh a v => exact (decode_regPoke ..).trans (congrArg _ (decodeRegPoke_eq_pokeRHigh (of_decide_eq_true h) v))
  | peekR | rdS | wrS | peekS | pokeS | wrT | peekT => simp [encode, bareTxn, decode]
  | evReset | evLatch | evCapstart => rfl
  | evRender drop => exact (decode_event ..).trans (decodeEvent_render drop 0 0)
  | evCaprow p ack => exact (decode_event ..).trans (decodeEvent_caprow p ack 0 0)
  | evDeadline g vk tv => exact (decode_event ..).trans (decodeEvent_deadline g vk 0 tv)
  | evIso vk tv => exact (decode_event ..).trans (decodeEvent_iso vk 0 tv)
  | evColl j bits => exact (decode_event ..).trans (decodeEvent_coll j bits 0)

/-- Settles O1: KIND, WIN and ADDR are read back from the word; well-formedness rules the earlier rows of the table out. -/
theorem decodeEncodeRoundTrip : Obligations.DecodeEncodeRoundTrip := fun _ => decode_encode

/-! ## Decoded operations are well-formed -/

theorem wellFormed_decodeRegRead (a : Word) (t : Nat) : WellFormed (decodeRegRead a t) = true := by
  unfold decodeRegRead
  split_ifs with hmode hreg hshape
  · rfl
  · have ha : a.setWidth 6 ≠ 0x21 := by bv_omega
    simpa [WellFormed] using ha
  · have ha : 0x40 ≤ (a.setWidth 14).toNat := by bv_omega
    exact decide_eq_true ha
  · exact decide_eq_true (Nat.not_lt.mp hshape)

theorem wellFormed_decodeRegWrite (a v : Word) (t : Nat) : WellFormed (decodeRegWrite a v t) = true := by
  unfold decodeRegWrite
  split_ifs with hde hmode hborder hreg
  · rfl
  · rfl
  · rfl
  · have ha : (a.setWidth 6 ≠ 0x20 ∧ a.setWidth 6 ≠ 0x21) ∧ a.setWidth 6 ≠ 0x2C :=
      ⟨⟨by bv_omega, by bv_omega⟩, by bv_omega⟩
    simpa [WellFormed] using ha
  · exact decide_eq_true (Nat.not_lt.mp hreg)

theorem wellFormed_decodeRegPoke (a v : Word) : WellFormed (decodeRegPoke a v) = true := by
  unfold decodeRegPoke
  split_ifs with hreg
  · rfl
  · exact decide_eq_true (Nat.not_lt.mp hreg)

/-- Every event admits all its arguments. -/
theorem wellFormed_of_decodeEvent {a d : Word} {tv : Nat} {i : Instr} (h : decodeEvent a d tv = .ok i) :
    WellFormed i = true := by
  unfold decodeEvent at h
  repeat' split at h
  all_goals cases h
  all_goals rfl

/-- A transaction by the fields of its word. -/
theorem Txn.exists_fields (x : Txn) : ∃ k w a d t tv, x = ⟨wordOf k w a, d, t, tv⟩ :=
  ⟨_, _, _, x.data, x.t, x.tv, by rw [wordOf_fields]⟩

/-- Settles O2: the branches of the register window leave each row the addresses no earlier row takes; the other rows take all. -/
theorem decodedOperationsWellFormed : Obligations.DecodedOperationsWellFormed := by
  intro x i h
  obtain ⟨k, w, a, d, t, tv, rfl⟩ := x.exists_fields
  simp only [decode, wordWin_wordOf, wordKind_wordOf, wordAddr_wordOf] at h
  cases w with
  | reg =>
    cases k with
    | read => cases h; exact wellFormed_decodeRegRead a t
    | write => cases h; exact wellFormed_decodeRegWrite a d t
    | peek => cases h; rfl
    | poke => cases h; exact wellFormed_decodeRegPoke a d
  | shape => cases k <;> cases h <;> rfl
  | tile =>
    cases k with
    | read | poke => cases h
    | write | peek => cases h; rfl
  | event =>
    cases k with
    | read => exact wellFormed_of_decodeEvent h
    | write | peek | poke => cases h

/-! ## The ordered table by window (30_encoding R83) -/

/-- The rows of the table that fix KIND `k` and WIN `w`, in their order. -/
def rowsOf (k : Kind) (w : Win) : List TableRow :=
  opcodeTable.filter fun r => r.pattern.extractLsb' 16 4 == kindBits k ++ winBits w

theorem rowsOf_regRead : rowsOf .read .reg =
    [⟨"RD.R.MODE", 0xFFFFF, 0x00021⟩, ⟨"RD.R.REG", 0xFFFC0, 0x00000⟩, ⟨"RD.R.SHAPE", 0xFC000, 0x00000⟩,
     ⟨"RD.R.ALIAS", 0xF0000, 0x00000⟩] := by decide

theorem rowsOf_regWrite : rowsOf .write .reg =
    [⟨"WR.R.DE", 0xFFFFF, 0x40020⟩, ⟨"WR.R.MODE", 0xFFFFF, 0x40021⟩, ⟨"WR.R.BORDER", 0xFFFFF, 0x4002C⟩,
     ⟨"WR.R.REG", 0xFFFC0, 0x40000⟩, ⟨"WR.R.HIGH", 0xF0000, 0x40000⟩] := by decide

theorem rowsOf_regPoke : rowsOf .poke .reg =
    [⟨"POKE.R", 0xFFFC0, 0xC0000⟩, ⟨"POKE.R.HIGH", 0xF0000, 0xC0000⟩] := by decide

theorem rowsOf_event : rowsOf .read .event = opcodeTable.drop 18 := by decide

theorem bitVec_append_inj {m n : Nat} {t t' : BitVec m} {b b' : BitVec n} : t ++ b = t' ++ b' ↔ t = t' ∧ b = b' := by
  refine ⟨fun h => ⟨?_, ?_⟩, fun ⟨ht, hb⟩ => ht ▸ hb ▸ rfl⟩
  · simpa only [BitVec.extractLsb'_append_eq_left] using congrArg (BitVec.extractLsb' n m) h
  · simpa only [BitVec.extractLsb'_append_eq_right] using congrArg (BitVec.extractLsb' 0 n) h

/-- A word matches a row whose mask holds KIND and WIN exactly when these are the row's and ADDR matches. -/
theorem wordOf_and_eq_iff (k : Kind) (w : Win) (a : Word) {mask : BitVec 20} (pattern : BitVec 20)
    (hmask : mask.extractLsb' 16 4 = 0xF) :
    wordOf k w a &&& mask = pattern ↔
      pattern.extractLsb' 16 4 = kindBits k ++ winBits w ∧ a &&& wordAddr mask = wordAddr pattern := by
  have hmaskFields : (0xF : BitVec 4) ++ wordAddr mask = mask := hmask ▸ extractLsb'_append_below (m := 4) (n := 16) mask
  have hpattern : pattern.extractLsb' 16 4 ++ wordAddr pattern = pattern :=
    extractLsb'_append_below (m := 4) (n := 16) pattern
  have hand : wordOf k w a &&& mask = (kindBits k ++ winBits w) ++ (a &&& wordAddr mask) :=
    calc wordOf k w a &&& mask
      _ = wordOf k w a &&& ((0xF : BitVec 4) ++ wordAddr mask) := by rw [hmaskFields]
      _ = (kindBits k ++ winBits w &&& 0xF) ++ (a &&& wordAddr mask) := BitVec.and_append
      _ = (kindBits k ++ winBits w) ++ (a &&& wordAddr mask) := by congr 1; exact BitVec.and_allOnes
  rw [hand]
  conv_lhs => rw [← hpattern]
  exact bitVec_append_inj.trans (and_congr_left' eq_comm)

/-- The table's choice is among the rows of the word's KIND and WIN, by ADDR. -/
theorem tableRow_wordOf (k : Kind) (w : Win) (a : Word) :
    tableRow (wordOf k w a) = (rowsOf k w).find? fun r => a &&& wordAddr r.mask == wordAddr r.pattern := by
  have hmask : ∀ r ∈ opcodeTable, r.mask.extractLsb' 16 4 = 0xF := by decide
  rw [rowsOf, List.find?_filter, tableRow]
  refine List.find?_congr fun r hr => ?_
  rw [Bool.eq_iff_iff, beq_iff_eq, decide_eq_true_iff, beq_iff_eq, beq_iff_eq]
  exact wordOf_and_eq_iff k w a r.pattern (hmask r hr)

/-! ## Which addresses a row takes -/

/-- A mask of ADDR's upper bits leaves nothing exactly of the addresses below the lowest bit it keeps. -/
theorem and_allOnes_shiftLeft_eq_zero_iff (a : Word) (n : Nat) : a &&& BitVec.allOnes 16 <<< n = 0 ↔ a.toNat < 2 ^ n := by
  have hkept : (a >>> n <<< n).toNat = a.toNat / 2 ^ n * 2 ^ n := by
    rw [BitVec.toNat_shiftLeft, BitVec.toNat_ushiftRight, Nat.shiftRight_eq_div_pow, Nat.shiftLeft_eq]
    exact Nat.mod_eq_of_lt (Nat.lt_of_le_of_lt (Nat.div_mul_le_self _ _) a.isLt)
  rw [← BitVec.shiftLeft_ushiftRight, ← BitVec.toNat_inj, hkept]
  simp [Nat.div_eq_zero_iff]

theorem and_FFFF (a : Word) : a &&& 0xFFFF#16 = a := BitVec.and_allOnes

theorem and_FFC0_eq_zero_iff (a : Word) : a &&& 0xFFC0#16 = 0#16 ↔ a.toNat < 0x40 :=
  and_allOnes_shiftLeft_eq_zero_iff a 6

theorem and_C000_eq_zero_iff (a : Word) : a &&& 0xC000#16 = 0#16 ↔ a.toNat < 0x4000 :=
  and_allOnes_shiftLeft_eq_zero_iff a 14

theorem map_find?_cons {α β : Type} (f : α → β) (p : α → Bool) (x : α) (xs : List α) :
    ((x :: xs).find? p).map f = if p x then some (f x) else (xs.find? p).map f := by
  cases h : p x <;> simp [h]

theorem tableRow_regRead (a : Word) :
    (tableRow (wordOf .read .reg a)).map TableRow.mnemonic =
      if a = 0x0021 then some "RD.R.MODE" else if a.toNat < 0x40 then some "RD.R.REG"
        else if a.toNat < 0x4000 then some "RD.R.SHAPE" else some "RD.R.ALIAS" := by
  rw [tableRow_wordOf, rowsOf_regRead]
  simp [map_find?_cons, wordAddr, and_FFFF, and_FFC0_eq_zero_iff, and_C000_eq_zero_iff]

theorem tableRow_regWrite (a : Word) :
    (tableRow (wordOf .write .reg a)).map TableRow.mnemonic =
      if a = 0x0020 then some "WR.R.DE" else if a = 0x0021 then some "WR.R.MODE" else if a = 0x002C then some "WR.R.BORDER"
        else if a.toNat < 0x40 then some "WR.R.REG" else some "WR.R.HIGH" := by
  rw [tableRow_wordOf, rowsOf_regWrite]
  simp [map_find?_cons, wordAddr, and_FFFF, and_FFC0_eq_zero_iff]

theorem tableRow_regPoke (a : Word) :
    (tableRow (wordOf .poke .reg a)).map TableRow.mnemonic =
      if a.toNat < 0x40 then some "POKE.R" else some "POKE.R.HIGH" := by
  rw [tableRow_wordOf, rowsOf_regPoke]
  simp [map_find?_cons, wordAddr, and_FFC0_eq_zero_iff]

/-- The rows of the events stand in the order of their codes (30_encoding R81). -/
theorem tableRow_event (a : Word) :
    tableRow (wordOf .read .event a) = (rowsOf .read .event)[(a.extractLsb' 12 4).toNat]? := by
  have hcode : a &&& 0xF000 = eventAddr (a.extractLsb' 12 4) 0 :=
    calc a &&& 0xF000
      _ = eventAddr (a.extractLsb' 12 4) (a.extractLsb' 0 12) &&& ((0xF : BitVec 4) ++ (0 : BitVec 12)) := by
        rw [eventAddr_fields]; rfl
      _ = (a.extractLsb' 12 4 &&& 0xF) ++ (a.extractLsb' 0 12 &&& 0) := BitVec.and_append
      _ = eventAddr (a.extractLsb' 12 4) 0 := congrArg₂ (· ++ ·) BitVec.and_allOnes BitVec.and_zero
  have hmask : ∀ r ∈ rowsOf .read .event, wordAddr r.mask = 0xF000 := by decide
  rw [tableRow_wordOf, List.find?_congr fun r hr => by rw [hmask r hr, hcode]]
  generalize a.extractLsb' 12 4 = code
  revert code
  decide

/-! ## The decoder selects the row of the table -/

/-- What 30_encoding R83 and R85 ask of the decoder's answer for the word `w`. -/
def FollowsTable (w : BitVec 20) : Except Reserved Instr → Prop
  | .ok i =>
    (tableRow w).map TableRow.mnemonic = some (mnemonic i) ∧
      ((mnemonic i = "EV.DEADLINE" ∨ mnemonic i = "EV.ISO") → w.extractLsb' 1 2 ≠ 3)
  | .error .valueKind =>
    ((tableRow w).map TableRow.mnemonic = some "EV.DEADLINE" ∨ (tableRow w).map TableRow.mnemonic = some "EV.ISO") ∧
      w.extractLsb' 1 2 = 3
  | .error _ => tableRow w = none

/-- An operation without a value kind follows the table by its row alone. -/
theorem followsTable_of_row {w : BitVec 20} {i : Instr} (hrow : (tableRow w).map TableRow.mnemonic = some (mnemonic i))
    (hdeadline : mnemonic i ≠ "EV.DEADLINE") (hiso : mnemonic i ≠ "EV.ISO") : FollowsTable w (.ok i) :=
  ⟨hrow, fun h => absurd h (not_or.mpr ⟨hdeadline, hiso⟩)⟩

theorem followsTable_regRead (a : Word) (t : Nat) : FollowsTable (wordOf .read .reg a) (.ok (decodeRegRead a t)) := by
  have hrow := tableRow_regRead a
  unfold decodeRegRead
  split_ifs at hrow ⊢ <;> exact followsTable_of_row hrow (by simp [mnemonic]) (by simp [mnemonic])

theorem followsTable_regWrite (a v : Word) (t : Nat) :
    FollowsTable (wordOf .write .reg a) (.ok (decodeRegWrite a v t)) := by
  have hrow := tableRow_regWrite a
  unfold decodeRegWrite
  split_ifs at hrow ⊢ <;> exact followsTable_of_row hrow (by simp [mnemonic]) (by simp [mnemonic])

theorem followsTable_regPoke (a v : Word) : FollowsTable (wordOf .poke .reg a) (.ok (decodeRegPoke a v)) := by
  have hrow := tableRow_regPoke a
  unfold decodeRegPoke
  split_ifs at hrow ⊢ <;> exact followsTable_of_row hrow (by simp [mnemonic]) (by simp [mnemonic])

/-- An event whose value kind is looked at: `valueKindOf` misses exactly the reserved kind (30_encoding R85). -/
theorem followsTable_valueKind {w : BitVec 20} {f : ValueKind → Instr} {name : String}
    (hrow : (tableRow w).map TableRow.mnemonic = some name) (hname : name = "EV.DEADLINE" ∨ name = "EV.ISO")
    (hf : ∀ vk, mnemonic (f vk) = name) :
    FollowsTable w
      (match valueKindOf (w.extractLsb' 1 2) with
      | some vk => .ok (f vk)
      | none => .error .valueKind) := by
  have hnone := valueKindOf_eq_none_iff (w.extractLsb' 1 2)
  cases hvk : valueKindOf (w.extractLsb' 1 2) with
  | none => exact ⟨hname.imp (hrow.trans <| congrArg some ·) (hrow.trans <| congrArg some ·), hnone.mp hvk⟩
  | some vk => exact ⟨hrow.trans (congrArg some (hf vk).symm), fun _ h => Option.some_ne_none vk (hvk ▸ hnone.mpr h)⟩

theorem followsTable_event (a d : Word) (tv : Nat) : FollowsTable (wordOf .read .event a) (decodeEvent a d tv) := by
  have hrow := tableRow_event a
  have hvk : a.extractLsb' 1 2 = (wordOf .read .event a).extractLsb' 1 2 :=
    (BitVec.extractLsb'_append_eq_of_add_le (by decide)).symm
  unfold decodeEvent
  rw [hvk]
  split
  case h_6 hcode =>
    rw [hcode] at hrow
    exact followsTable_valueKind (f := fun vk => .evDeadline _ vk tv) (hrow ▸ rfl) (.inl rfl) fun _ => rfl
  case h_7 hcode =>
    rw [hcode] at hrow
    exact followsTable_valueKind (f := fun vk => .evIso vk tv) (hrow ▸ rfl) (.inr rfl) fun _ => rfl
  case h_9 h0 h1 h2 h3 h4 h5 h6 h7 =>
    have hcode : 8 ≤ (a.extractLsb' 12 4).toNat := by
      simp only [imp_false] at h0 h1 h2 h3 h4 h5 h6 h7
      omega
    have hlength : (rowsOf .read .event).length = 8 := by rw [rowsOf_event]; rfl
    exact hrow.trans (List.getElem?_eq_none (hlength.trans_le hcode))
  all_goals
    next hcode =>
      rw [hcode] at hrow
      exact followsTable_of_row (hrow ▸ rfl) (by simp [mnemonic]) (by simp [mnemonic])

/-- Where the one row of a KIND and WIN admits every ADDR, the operation of its name follows the table. -/
theorem followsTable_of_rowsOf {k : Kind} {w : Win} {i : Instr} (name : String)
    (hrows : (rowsOf k w).map (fun r => (r.mnemonic, wordAddr r.mask, wordAddr r.pattern)) = [(name, 0, 0)])
    (hi : mnemonic i = name) (hname : name ≠ "EV.DEADLINE" ∧ name ≠ "EV.ISO") (a : Word) :
    FollowsTable (wordOf k w a) (.ok i) := by
  obtain ⟨r, hr, hfields⟩ := List.map_eq_singleton_iff.mp hrows
  obtain ⟨rfl, hmask, hpattern⟩ : r.mnemonic = name ∧ wordAddr r.mask = 0 ∧ wordAddr r.pattern = 0 := by
    simpa only [Prod.mk.injEq] using hfields
  have hmatch : (a &&& wordAddr r.mask == wordAddr r.pattern) = true := by
    rw [hmask, hpattern, beq_iff_eq]
    exact BitVec.and_zero
  have hrow : tableRow (wordOf k w a) = some r := by
    rw [tableRow_wordOf, hr]
    exact List.find?_cons_of_pos hmatch
  exact followsTable_of_row (by rw [hrow, hi, Option.map_some]) (hi ▸ hname.1) (hi ▸ hname.2)

/-- Settles O3: the rows of each KIND and WIN split ADDR as the decoder does; the tile window and the events have no row for
the reserved kinds. -/
theorem decodeFollowsOrderedTable : Obligations.DecodeFollowsOrderedTable := by
  intro x
  suffices h : FollowsTable x.word (decode x) from h
  obtain ⟨k, w, a, d, t, tv, rfl⟩ := x.exists_fields
  simp only [decode, wordWin_wordOf, wordKind_wordOf, wordAddr_wordOf]
  cases w with
  | reg =>
    cases k with
    | read => exact followsTable_regRead a t
    | write => exact followsTable_regWrite a d t
    | peek => exact followsTable_of_rowsOf "PEEK.R" (by decide) rfl (by decide) a
    | poke => exact followsTable_regPoke a d
  | shape =>
    cases k with
    | read => exact followsTable_of_rowsOf "RD.S" (by decide) rfl (by decide) a
    | write => exact followsTable_of_rowsOf "WR.S" (by decide) rfl (by decide) a
    | peek => exact followsTable_of_rowsOf "PEEK.S" (by decide) rfl (by decide) a
    | poke => exact followsTable_of_rowsOf "POKE.S" (by decide) rfl (by decide) a
  | tile =>
    cases k with
    | read | poke => exact tableRow_wordOf ..
    | write => exact followsTable_of_rowsOf "WR.T" (by decide) rfl (by decide) a
    | peek => exact followsTable_of_rowsOf "PEEK.T" (by decide) rfl (by decide) a
  | event =>
    cases k with
    | read => exact followsTable_event a d tv
    | write | peek | poke => exact tableRow_wordOf ..

/-! ## Reserved words (30_encoding R85) -/

theorem Machine.step_of_decode_error {s : State} {x : Txn} {rest : List Txn} {why : Reserved} (hinbox : s.inbox = x :: rest)
    (hdec : decode x = .error why) : step s = .refused (.reserved why) := by
  unfold step
  rw [hinbox]
  simp only [hdec]

theorem decode_tileRead {x : Txn} (hwin : wordWin x.word = .tile) (hkind : wordKind x.word = .read) :
    decode x = .error .tileRead := by
  simp only [decode, hwin, hkind]

theorem decode_tilePoke {x : Txn} (hwin : wordWin x.word = .tile) (hkind : wordKind x.word = .poke) :
    decode x = .error .tilePoke := by
  simp only [decode, hwin, hkind]

theorem decode_eventKind {x : Txn} (hwin : wordWin x.word = .event) (hkind : wordKind x.word ≠ .read) :
    decode x = .error .eventKind := by
  cases hk : wordKind x.word with
  | read => exact absurd hk hkind
  | write | peek | poke => simp only [decode, hwin, hk]

/-- A code from 8 up is no event's. -/
theorem decodeEvent_of_code_ge {a : Word} (h : 8 ≤ (a.extractLsb' 12 4).toNat) (d : Word) (tv : Nat) :
    decodeEvent a d tv = .error (.eventCode (a.extractLsb' 12 4)) := by
  unfold decodeEvent
  split
  case h_9 => rfl
  all_goals omega

theorem decodeEvent_of_valueKind {a : Word} (hcode : a.extractLsb' 12 4 = 5 ∨ a.extractLsb' 12 4 = 6)
    (hvk : a.extractLsb' 1 2 = 3) (d : Word) (tv : Nat) : decodeEvent a d tv = .error .valueKind := by
  have hnone : valueKindOf (a.extractLsb' 1 2) = none := (valueKindOf_eq_none_iff _).mpr hvk
  obtain hcode | hcode := hcode
  · simp only [decodeEvent, hcode, hnone]; rfl
  · simp only [decodeEvent, hcode, hnone]; rfl

/-- Settles O4: each kind of reserved word is the decoder's error of that name, and a step refuses what is not decoded. -/
theorem reservedWordsRefused : Obligations.ReservedWordsRefused := by
  intro s x rest hinbox kind win code
  have hcode : (wordAddr x.word).extractLsb' 12 4 = code := extractLsb'_wordAddr x.word (by decide)
  have hvk : (wordAddr x.word).extractLsb' 1 2 = x.word.extractLsb' 1 2 := extractLsb'_wordAddr x.word (by decide)
  have hevent (hwin : win = 3) (hkind : kind = 0) : decode x = decodeEvent (wordAddr x.word) x.data x.tv := by
    simp only [decode, show wordWin x.word = .event from congrArg winOf hwin,
      show wordKind x.word = .read from congrArg kindOf hkind]
  refine ⟨fun hwin hkind => ?_, fun hwin hkind => ?_, fun hwin hkind => ?_, fun hwin hkind hge => ?_,
    fun hwin hkind hdeadline hreserved => ?_⟩
  · exact Machine.step_of_decode_error hinbox (decode_tileRead (congrArg winOf hwin) (congrArg kindOf hkind))
  · exact Machine.step_of_decode_error hinbox (decode_tilePoke (congrArg winOf hwin) (congrArg kindOf hkind))
  · exact Machine.step_of_decode_error hinbox (decode_eventKind (congrArg winOf hwin) ((kindOf_eq_read_iff _).not.mpr hkind))
  · refine Machine.step_of_decode_error hinbox ((hevent hwin hkind).trans ?_)
    rw [← hcode] at hge ⊢
    exact decodeEvent_of_code_ge hge _ _
  · refine Machine.step_of_decode_error hinbox ((hevent hwin hkind).trans ?_)
    rw [← hcode] at hdeadline
    exact decodeEvent_of_valueKind hdeadline (hvk.trans hreserved) _ _

/-! ## Words of the test vectors -/

/-- Settles O5: each word evaluates to its operation (95_test_vectors 2.1). -/
theorem tableWordsDecode : Obligations.TableWordsDecode := by
  unfold Obligations.TableWordsDecode
  decide

end Sys2Proof
end

section
/-! PROOF. The register window (40_register_access): first the rules of the gate, of the masked store, of the read values and of
the gated operations, each said once; then the statements about single operations, and the register property over runs. -/

namespace Sys2Proof.Machine

variable (s : State)

/-! ## The gate (R101, R119, R120) -/

theorem Deadline.reachedBy_iff (e : Deadline) (t : Nat) :
    e.reachedBy t = true ↔ e = .closed ∨ ∃ d, e = .time d ∧ d ≤ t := by
  cases e <;> simp [Deadline.reachedBy]

theorem Deadline.admits_iff (e : Deadline) (t : Nat) : e.admits t = true ↔ e = .inf ∨ ∃ d, e = .time d ∧ t ≤ d := by
  cases e <;> simp [Deadline.admits]

theorem State.honoured_iff (g : Gate) (t : Nat) :
    s.honoured g t = true ↔ (s.isoEnd = .closed ∨ ∃ e, s.isoEnd = .time e ∧ e ≤ t) ∧
      (s.deadline g = .inf ∨ ∃ d, s.deadline g = .time d ∧ t ≤ d) := by
  rw [State.honoured, Bool.and_eq_true, Deadline.reachedBy_iff, Deadline.admits_iff]

/-- Settles O15: isolation without end and closed deadlines, as reset leaves them, let no timestamp pass. -/
theorem gateWindow : Obligations.GateWindow := by
  refine ⟨fun s g t => ?_, fun g t => rfl⟩
  cases g with
  | reg => exact s.honoured_iff .reg t
  | mem => exact s.honoured_iff .mem t

theorem exec_evDeadline_reg (vk : ValueKind) (tv : Nat) :
    exec (.evDeadline .reg vk tv) s = .next { s with regDeadline := deadlineOf vk tv } := rfl

theorem exec_evDeadline_mem (vk : ValueKind) (tv : Nat) :
    exec (.evDeadline .mem vk tv) s = .next { s with memDeadline := deadlineOf vk tv } := rfl

theorem exec_evIso (vk : ValueKind) (tv : Nat) : exec (.evIso vk tv) s = .next { s with isoEnd := deadlineOf vk tv } := rfl

/-- Settles O17: the three events, each at the three value kinds. -/
theorem deadlineAndIsolationEvents : Obligations.DeadlineAndIsolationEvents := fun s tv =>
  ⟨exec_evDeadline_reg s .tv tv, exec_evDeadline_reg s .inf tv, exec_evDeadline_reg s .closed tv,
    exec_evDeadline_mem s .tv tv, exec_evDeadline_mem s .inf tv, exec_evDeadline_mem s .closed tv,
    exec_evIso s .tv tv, exec_evIso s .inf tv, exec_evIso s .closed tv⟩

/-! ## The masked store and the selected writes (R102, R109 to R112, R116) -/

/-- A word that is already stored is stored again without effect. -/
theorem State.store_of_masked_eq {s : State} {a : RegAddr} {v : Word} (h : s.masked a v = s.reg a) : s.store a v = s :=
  if_pos h

/-- The frame of `Store`. -/
theorem State.store_frame (a : RegAddr) (v : Word) :
    s.store a v = { s with regs := (s.store a v).regs, regDirty := s.regDirty || (s.masked a v != s.reg a) } := by
  by_cases h : s.masked a v = s.reg a
  · simp [State.store_of_masked_eq h, h]
  · simp [State.store, h]

/-- `ModeSet` moves the mode, and marks the tile output when that is a change (R121). -/
theorem State.modeSet_eq (m : Mode) : s.modeSet m = { s with mode := m, tileDirty := s.tileDirty || (s.mode != m) } := by
  by_cases h : s.mode = m
  · simp [State.modeSet, ← h]
  · simp [State.modeSet, h]

/-- The mask works bit by bit. -/
theorem State.masked_or (a : RegAddr) (v w : Word) : s.masked a (v ||| w) = s.masked a v ||| s.masked a w := by
  simp only [State.masked]
  ext i hi
  simp only [BitVec.getElem_or, BitVec.getElem_and]
  cases v[i] <;> cases w[i] <;> cases (s.andMask a)[i] <;> cases (s.orMask a)[i] <;> rfl

/-- A selected write announces the border colour by its own address and word. -/
theorem State.writeSelected_out_eq (a : RegAddr) (v : Word) :
    (s.writeSelected a v).out = s.out ++
      if a = 0x2C ∧ s.masked a v ≠ s.reg a then [.borderColor ((s.masked a v).extractLsb' 0 4)] else [] := by
  rw [State.writeSelected_out]
  by_cases ha : a = 0x2C
  · simp [ha, State.storeChanges, field]
  · simp only [ha, false_and, if_false]

/-- All that a selected write does beside storing its word. -/
theorem State.writeSelected_eq (a : RegAddr) (v : Word) :
    s.writeSelected a v = { s with
      regs := (s.writeSelected a v).regs
      regDirty := s.regDirty || (s.masked a v != s.reg a)
      pendingEnable := s.pendingEnable || (a == 0x20)
      mode := if a = 0x21 then .fgbg else s.mode
      tileDirty := s.tileDirty || (a == 0x21 && (s.mode != .fgbg))
      out := s.out ++
        if a = 0x2C ∧ s.masked a v ≠ s.reg a then [.borderColor ((s.masked a v).extractLsb' 0 4)] else [] } := by
  conv_lhs => rw [State.writeSelected_frame]
  rw [State.writeSelected_regDirty, State.writeSelected_pendingEnable, State.writeSelected_mode,
    State.writeSelected_tileDirty, State.writeSelected_out_eq, State.storeChanges]

theorem State.writeSelected_other {a : RegAddr} (hde : a ≠ 0x20) (hmode : a ≠ 0x21) (hborder : a ≠ 0x2C) (v : Word) :
    s.writeSelected a v = s.store a v := by
  rw [State.writeSelected, if_neg hde, if_neg hmode, if_neg hborder]

theorem State.writeHigh_of_drop {s : State} (h : s.cfg.highWrite = .drop) (a v : Word) : s.writeHigh a v = s := by
  simp only [State.writeHigh, h]

theorem State.writeHigh_of_lowRegister {s : State} (h : s.cfg.highWrite = .lowRegister) (a v : Word) :
    s.writeHigh a v = s.writeSelected (a.setWidth 6) v := by
  simp only [State.writeHigh, h]

/-! ## The gated writes: one equation each -/

theorem exec_wrRDe (v : Word) (t : Nat) :
    exec (.wrRDe v t) s = .next (if s.honoured .reg t then s.writeSelected 0x20 v else s) := by
  rw [State.writeSelected_de]; rfl

theorem exec_wrRMode (v : Word) (t : Nat) :
    exec (.wrRMode v t) s = .next (if s.honoured .reg t then s.writeSelected 0x21 v else s) := by
  rw [State.writeSelected_modeRegister]; rfl

theorem exec_wrRBorder (v : Word) (t : Nat) :
    exec (.wrRBorder v t) s = .next (if s.honoured .reg t then s.writeSelected 0x2C v else s) := by
  rw [State.writeSelected_border]; rfl

theorem exec_wrRReg (a : RegAddr) (v : Word) (t : Nat) :
    exec (.wrRReg a v t) s = .next (if s.honoured .reg t then s.store a v else s) := rfl

theorem exec_wrRHigh (a v : Word) (t : Nat) :
    exec (.wrRHigh a v t) s = .next (if s.honoured .reg t then s.writeHigh a v else s) := rfl

theorem exec_pokeR (a : RegAddr) (v : Word) : exec (.pokeR a v) s = .next (s.writeSelected a v) := rfl

theorem exec_pokeRHigh (a v : Word) : exec (.pokeRHigh a v) s = .next (s.writeHigh a v) := rfl

theorem exec_evColl (i : BitVec 3) (bits : Word) :
    exec (.evColl i bits) s = .next (s.store (s.collisionReg i) (s.reg (s.collisionReg i) ||| bits)) := rfl

/-- A write that its gate drops completes and changes nothing. -/
theorem exec_of_droppedWrite {s : State} {i : Instr} (h : s.droppedWrite i = true) : exec i s = .next s := by
  cases i with
  | wrRDe | wrRMode | wrRBorder | wrRReg | wrRHigh =>
    exact congrArg Host.Outcome.next (if_neg (by simpa [State.droppedWrite] using h))
  | _ => exact absurd h Bool.false_ne_true

/-! ## The read values (R103, R104, R106) -/

theorem State.regValue_congr {s u : State} (hc : u.cfg = s.cfg) (hr : u.regs = s.regs) (a : RegAddr) :
    u.regValue a = s.regValue a := by
  rw [State.regValue, State.regValue, State.masked_congr hc, State.reg_congr hr]

/-- A register just written reads as its masked word. -/
theorem State.writeSelected_regValue (a : RegAddr) (v : Word) : (s.writeSelected a v).regValue a = s.masked a v := by
  rw [State.regValue, State.masked_congr (s.writeSelected_cfg a v), State.writeSelected_reg, if_pos rfl,
    State.masked_masked]

/-- Garbage below 0x40 is the parameter up to its limit. -/
theorem State.garbage_of_reg (a : RegAddr) :
    s.garbage (a.setWidth 16) =
      if a.toNat < s.cfg.garbageLow.length then s.cfg.garbageLow.getD a.toNat 0xFFFF else 0xFFFF := by
  have haddr : (a.setWidth 16).toNat = a.toNat := BitVec.toNat_setWidth_of_le (by decide)
  rw [State.garbage, haddr, if_pos a.isLt]
  split
  · rfl
  · next h => exact List.getD_eq_default _ _ (Nat.not_lt.mp h)

theorem State.garbage_of_ge {a : Word} (h : 0x40 ≤ a.toNat) : s.garbage a = 0xFFFF := if_neg (Nat.not_lt.mpr h)

/-- The cell a 16-bit address reaches: its low 12 bits in ROM, its low 9 bits in RAM. -/
theorem shapeCell_shapeIndex (a : Word) :
    shapeCell (shapeIndex a) =
      if a.toNat % 0x1000 < 0x800 then a.toNat % 0x1000 else 0x800 + a.toNat % 0x1000 % 0x200 := by
  have hindex : (shapeIndex a).toNat = a.toNat % 0x1000 := BitVec.toNat_setWidth _ _
  have hlow : (shapeIndex a &&& 0x1FF).toNat = a.toNat % 0x1000 % 0x200 := by
    rw [BitVec.toNat_and, hindex]
    exact Nat.and_two_pow_sub_one_eq_mod _ 9
  rw [shapeCell, hindex, hlow]

theorem State.shapeWord_shapeIndex (a : Word) :
    s.shapeWord (shapeIndex a) = s.cfg.shapeReadHigh ++
      s.mem.read (if a.toNat % 0x1000 < 0x800 then a.toNat % 0x1000 else 0x800 + a.toNat % 0x1000 % 0x200) := by
  rw [State.shapeWord, State.shapeValue, shapeCell_shapeIndex]

theorem classifyReg_of_reg {a : Word} (h : a.toNat < 0x40) : classifyReg a = .reg (a.setWidth 6) := by
  rw [classifyReg, if_neg (by omega), if_neg (by omega)]

theorem classifyReg_of_shape {a : Word} (hlow : 0x40 ≤ a.toNat) (hhigh : a.toNat < 0x4000) :
    classifyReg a = .shape (shapeIndex a) := by
  rw [classifyReg, if_neg (by omega), if_pos hlow, shapeIndex]

theorem classifyReg_of_alias {a : Word} (h : 0x4000 ≤ a.toNat) : classifyReg a = .aliasSpace := if_pos h

/-! ## The reads and peeks: one equation per class and gate -/

theorem exec_rdRMode_of_honoured {s : State} {t : Nat} (h : s.honoured .reg t = true) :
    exec (.rdRMode t) s = .next ((s.modeSet .cs).emit (.value (s.regValue 0x21))) := by
  rw [← State.regValue_congr (s.modeSet_cfg .cs) (s.modeSet_regs .cs)]
  exact if_pos h

theorem exec_rdRMode_of_dropped {s : State} {t : Nat} (h : s.honoured .reg t = false) :
    exec (.rdRMode t) s = .next (s.emit (.value (s.garbage 0x0021))) :=
  if_neg (Bool.eq_false_iff.mp h)

theorem exec_rdRReg (a : RegAddr) (t : Nat) :
    exec (.rdRReg a t) s =
      .next (s.emit (.value (if s.honoured .reg t then s.regValue a else s.garbage (a.setWidth 16)))) := rfl

theorem exec_rdRShape (a : BitVec 14) (t : Nat) :
    exec (.rdRShape a t) s =
      .next (s.emit (.value (if s.honoured .reg t then s.shapeWord (shapeIndex (a.setWidth 16))
        else s.garbage (a.setWidth 16)))) := rfl

theorem exec_rdRAlias (a : Word) (t : Nat) : exec (.rdRAlias a t) s = .next (s.emit (.value 0xFFFF)) := rfl

theorem exec_peekR_of_reg {a : Word} (h : a.toNat < 0x40) :
    exec (.peekR a) s = .next (s.emit (.value (s.regValue (a.setWidth 6)))) := by
  simp only [exec, execPeekR, classifyReg_of_reg h]

theorem exec_peekR_of_shape {a : Word} (hlow : 0x40 ≤ a.toNat) (hhigh : a.toNat < 0x4000) :
    exec (.peekR a) s = .next (s.emit (.value (s.shapeWord (shapeIndex a)))) := by
  simp only [exec, execPeekR, classifyReg_of_shape hlow hhigh]

theorem exec_peekR_of_alias {a : Word} (h : 0x4000 ≤ a.toNat) : exec (.peekR a) s = .next (s.emit (.value 0xFFFF)) := by
  simp only [exec, execPeekR, classifyReg_of_alias h]

/-! ## Pokes and the collision event -/

/-- Settles O29: a poke is the selected write of its address, without the gate. -/
theorem pokeRegister : Obligations.PokeRegister := fun s a v =>
  ⟨_, exec_pokeR s a v, s.writeSelected_reg a v, s.writeSelected_eq a v⟩

/-- Settles O30: the event is a masked store of the old word with bits ORed in, and the mask keeps what a masked word had. -/
theorem collisionEventOnlySetsBits : Obligations.CollisionEventOnlySetsBits := by
  intro s i bits r nv
  have hreg : ∀ b, (s.store r (s.reg r ||| bits)).reg b = if b = r then nv else s.reg b := s.store_reg r _
  refine ⟨_, exec_evColl s i bits, hreg, s.store_frame r _, fun hmasked n hn => ?_⟩
  have hnv : nv = s.reg r ||| s.masked r bits := (s.masked_or r _ _).trans (by rw [hmasked])
  have hbit : nv.getLsbD n = true := by rw [hnv, BitVec.getLsbD_or, hn, Bool.true_or]
  exact (congrArg (·.getLsbD n) ((hreg r).trans (if_pos rfl))).trans hbit

/-! ## The register property (R118) -/

theorem exec_decodeRegWrite_of_honoured {s : State} {t : Nat} (h : s.honoured .reg t = true) (r : RegAddr) (v : Word) :
    exec (decodeRegWrite (r.setWidth 16) v t) s = .next (s.writeSelected r v) := by
  by_cases hde : r = 0x20
  · subst hde
    exact (exec_wrRDe s v t).trans (by rw [if_pos h])
  by_cases hmode : r = 0x21
  · subst hmode
    exact (exec_wrRMode s v t).trans (by rw [if_pos h])
  by_cases hborder : r = 0x2C
  · subst hborder
    exact (exec_wrRBorder s v t).trans (by rw [if_pos h])
  rw [decodeRegWrite_eq_wrRReg hde hmode hborder, exec_wrRReg, if_pos h, State.writeSelected_other s hde hmode hborder]

/-- An honoured read hands out the register value, and selects Color-Stack mode at 0x21 alone. -/
theorem exec_decodeRegRead_of_honoured {s : State} {t : Nat} (h : s.honoured .reg t = true) (r : RegAddr) :
    exec (decodeRegRead (r.setWidth 16) t) s =
      .next ((if r = 0x21 then s.modeSet .cs else s).emit (.value (s.regValue r))) := by
  by_cases hr : r = 0x21
  · subst hr
    exact exec_rdRMode_of_honoured h
  · rw [decodeRegRead_eq_rdRReg hr, exec_rdRReg, if_pos h, if_neg hr]

theorem exec_of_movesGate {i : Instr} (h : movesGate i = true) : ∃ t, exec i s = .next t ∧ s.Alike t := by
  cases i with
  | evDeadline target vk tv =>
    cases target with
    | reg => exact ⟨_, exec_evDeadline_reg s vk tv, rfl, rfl, rfl, rfl, rfl, rfl, rfl⟩
    | mem => exact ⟨_, exec_evDeadline_mem s vk tv, rfl, rfl, rfl, rfl, rfl, rfl, rfl⟩
  | evIso vk tv => exact ⟨_, exec_evIso s vk tv, rfl, rfl, rfl, rfl, rfl, rfl, rfl⟩
  | _ => exact absurd h Bool.false_ne_true

/-- A run of dropped writes and gate events completes and touches neither registers nor masks. -/
theorem runOps_of_onlyDroppedWrites {l : List Instr} {s : State} (h : s.onlyDroppedWrites l = true) :
    ∃ m, runOps l s = .next m ∧ s.Alike m := by
  induction l generalizing s with
  | nil => exact ⟨s, rfl, .refl s⟩
  | cons i l ih =>
    rw [State.onlyDroppedWrites, Bool.and_eq_true, Bool.or_eq_true] at h
    obtain ⟨hi, hl⟩ := h
    obtain ⟨t, ht, halike⟩ : ∃ t, exec i s = .next t ∧ s.Alike t :=
      hi.elim (exec_of_movesGate s) fun hd => ⟨s, exec_of_droppedWrite hd, .refl s⟩
    rw [ht] at hl
    obtain ⟨m, hm, hrest⟩ := ih hl
    exact ⟨m, by rw [runOps, ht]; exact hm, halike.trans hrest⟩

/-- Settles O31: the write leaves the masked word, which reads as itself, and no dropped write or gate event reaches it. -/
theorem registerPropertyAcrossDroppedWrites : Obligations.RegisterPropertyAcrossDroppedWrites := by
  intro s r v t0 t1 between hg
  refine ⟨_, exec_decodeRegWrite_of_honoured hg r v, fun hbetween => ?_⟩
  obtain ⟨m, hrun, halike⟩ := runOps_of_onlyDroppedWrites hbetween
  refine ⟨m, hrun, halike.regs, fun hm => ⟨_, exec_decodeRegRead_of_honoured hm r, ?_, ?_⟩⟩
  · have hvalue : m.regValue r = s.masked r v :=
      (State.regValue_congr halike.cfg halike.regs r).trans (s.writeSelected_regValue r v)
    rw [State.emit_out, hvalue]
    split
    · rw [State.modeSet_out]; rfl
    · rfl
  · split <;> simp

/-! ## Unimplemented registers (R109, 10_state R23) -/

theorem State.masked_of_unimplemented {s : State} {a : RegAddr} (hwf : s.cfg.wf) (ha : a ∈ s.cfg.unimplemented) (v : Word) :
    s.masked a v = s.cfg.allOnes := by
  rw [State.masked, State.andMask, State.orMask, hwf.1 a ha]
  simp

theorem State.reg_of_unimplemented {s : State} {a : RegAddr} (hwf : s.cfg.wf) (hs : s.RegsMasked)
    (ha : a ∈ s.cfg.unimplemented) (hde : a ≠ 0x20) : s.reg a = s.cfg.allOnes :=
  (hs a hde).symm.trans (State.masked_of_unimplemented hwf ha _)

/-- Settles O32: a step keeps the parameters and the register invariant, which together fix the word. -/
theorem unimplementedRegistersFixed : Obligations.UnimplementedRegistersFixed := by
  intro s a hwf hs ha hde
  have hword := State.reg_of_unimplemented hwf hs ha hde
  refine ⟨State.masked_of_unimplemented hwf ha _, fun t hstep => ?_, fun v n => ?_⟩
  · have hcfg := parametersNeverChange s t hstep
    have hwf' : t.cfg.wf := hcfg ▸ hwf
    have ha' : a ∈ t.cfg.unimplemented := hcfg ▸ ha
    have hword' := State.reg_of_unimplemented hwf' (registerMasksKept s t hs hstep) ha' hde
    rw [hcfg] at hword'
    exact ⟨hword'.trans hword.symm, (State.masked_of_unimplemented hwf' ha' _).trans (congrArg Config.allOnes hcfg)⟩
  · have hsame : s.store a v = s :=
      State.store_of_masked_eq ((State.masked_of_unimplemented hwf ha v).trans hword.symm)
    rw [exec_wrRReg, hsame, ite_self]

/-! ## The store and the reads -/

/-- Settles O18: the frame of `Store`; the read value of a masked word is the word. -/
theorem maskedStoreAndReadValue : Obligations.MaskedStoreAndReadValue :=
  ⟨fun s a v => ⟨s.store_reg a v, rfl, s.store_frame a v⟩, fun _ a => ⟨rfl, fun hs ha => hs a ha⟩⟩

/-- Settles O19: the honoured read is `ModeSet` and the register value; the others only hand out a value. -/
theorem modeReadSelectsColorStack : Obligations.ModeReadSelectsColorStack := by
  intro s t
  refine ⟨fun hg => ?_, fun hg => ?_, fun hg hmode => ?_, exec_peekR_of_reg s (by decide)⟩
  · rw [exec_rdRMode_of_honoured hg, State.modeSet_eq]; rfl
  · have hgarbage : s.garbage 0x0021 = _ := s.garbage_of_reg 0x21
    rw [exec_rdRMode_of_dropped hg, hgarbage]; rfl
  · have hsame : s.modeSet .cs = s := if_pos hmode
    rw [exec_rdRMode_of_honoured hg, hsame]; rfl

/-- Settles O20: the register value inside the window, garbage outside it. -/
theorem registerReadGated : Obligations.RegisterReadGated := by
  intro s a t _
  refine ⟨fun hg => ?_, fun hg => ?_⟩
  · rw [exec_rdRReg, if_pos hg]; rfl
  · rw [exec_rdRReg, if_neg (Bool.eq_false_iff.mp hg), State.garbage_of_reg]; rfl

/-- Settles O21: the shape byte of the 12-bit index inside the window; garbage from 0x40 up is all-ones. -/
theorem shapeReadThroughRegisterWindow : Obligations.ShapeReadThroughRegisterWindow := by
  intro s a t ha i
  have haddr : (a.setWidth 16).toNat = a.toNat := BitVec.toNat_setWidth_of_le (by decide)
  refine ⟨fun hg => ?_, fun hg => ?_⟩
  · rw [exec_rdRShape, if_pos hg, State.shapeWord_shapeIndex, haddr]; rfl
  · rw [exec_rdRShape, if_neg (Bool.eq_false_iff.mp hg), State.garbage_of_ge s (haddr ▸ ha)]; rfl

/-- Settles O22: the read of 0x4000 and up asks no gate. -/
theorem aliasReadsAllOnes : Obligations.AliasReadsAllOnes := fun s a t _ => exec_rdRAlias s a t

/-- Settles O28: the three classes of addresses, by their bounds. -/
theorem peekRegisterWindow : Obligations.PeekRegisterWindow := by
  intro s a i
  by_cases hreg : a.toNat < 0x40
  · rw [exec_peekR_of_reg s hreg, if_pos hreg]; rfl
  by_cases hshape : a.toNat < 0x4000
  · rw [exec_peekR_of_shape s (Nat.not_lt.mp hreg) hshape, if_neg hreg, if_pos hshape, State.shapeWord_shapeIndex]; rfl
  · rw [exec_peekR_of_alias s (Nat.not_lt.mp hshape), if_neg hreg, if_neg hshape]; rfl

/-! ## The writes -/

/-- An update behind the register gate: inside the window what holds of the update holds, outside it nothing changes. -/
theorem exec_gated {P : State → Prop} {s u : State} {i : Instr} {t : Nat}
    (hexec : exec i s = .next (if s.honoured .reg t then u else s)) (hu : P u) :
    (s.honoured .reg t = true → ∃ w, exec i s = .next w ∧ P w) ∧ (s.honoured .reg t = false → exec i s = .next s) :=
  ⟨fun hg => ⟨u, by rw [hexec, if_pos hg], hu⟩, fun hg => by rw [hexec, if_neg (Bool.eq_false_iff.mp hg)]⟩

/-- Settles O23: the selected write of 0x20. -/
theorem displayEnableWrite : Obligations.DisplayEnableWrite := fun s v t =>
  exec_gated (exec_wrRDe s v t)
    ⟨s.writeSelected_reg 0x20 v, (s.writeSelected_eq 0x20 v).trans (by simp [State.masked])⟩

/-- Settles O24: the selected write of 0x21. -/
theorem modeWriteSelectsForeBack : Obligations.ModeWriteSelectsForeBack := fun s v t =>
  exec_gated (exec_wrRMode s v t)
    ⟨s.writeSelected_reg 0x21 v, (s.writeSelected_eq 0x21 v).trans (by simp [State.masked])⟩

/-- Settles O25: the selected write of 0x2C, the one that announces a colour. -/
theorem borderWriteNotifies : Obligations.BorderWriteNotifies := fun s v t =>
  exec_gated (exec_wrRBorder s v t)
    ⟨s.writeSelected_reg 0x2C v, (s.writeSelected_eq 0x2C v).trans (by simp [State.masked])⟩

/-- Settles O26: at the other addresses the gated operation is the masked store alone. -/
theorem registerWriteMasked : Obligations.RegisterWriteMasked := fun s a v t _ _ _ =>
  exec_gated (exec_wrRReg s a v t) ⟨s.store_reg a v, s.store_frame a v⟩

/-- Settles O27: under the parameter a high write is nothing, or the selected write of the low six address bits. -/
theorem highWritesFollowParameter : Obligations.HighWritesFollowParameter := by
  intro s a v t _
  refine ⟨fun hdrop => ?_, fun hlow => ⟨s.writeHigh a v, ?_, exec_pokeRHigh s a v, exec_wrRHigh s a v t⟩⟩
  · rw [exec_wrRHigh, exec_pokeRHigh, State.writeHigh_of_drop hdrop, ite_self]
    exact ⟨rfl, rfl⟩
  · have haddr : BitVec.ofNat 6 (a.toNat % 0x40) = a.setWidth 6 := BitVec.eq_of_toNat_eq (by simp)
    rw [haddr, State.writeHigh_of_lowRegister hlow, exec_pokeR]

end Sys2Proof.Machine
end

section
/-! PROOF. Shape memory (41_shape_memory): first the cell an address reaches, what a shape write does to each cell, and who writes
shape memory at all, each said once; then the reads, the writes and the read-only half. -/

namespace Sys2Proof.Machine

variable (s : State)

/-! ## The cell an address reaches (20_memory R62) -/

theorem shapeCell_eq (j : ShapeIndex) :
    shapeCell j = if j.toNat < 0x800 then j.toNat else 0x800 + j.toNat % 0x200 := by
  have hlow : (j &&& 0x1FF).toNat = j.toNat % 0x200 := by
    rw [BitVec.toNat_and]
    exact Nat.and_two_pow_sub_one_eq_mod _ 9
  rw [shapeCell, hlow]

theorem shapeIndex_toNat (a : Word) : (shapeIndex a).toNat = a.toNat % 0x1000 := BitVec.toNat_setWidth _ _

/-- RAM is decoded by the low nine address bits. -/
theorem shapeCell_shapeIndex_ram {a : Word} (h : 0x800 ≤ a.toNat % 0x1000) :
    shapeCell (shapeIndex a) = 0x800 + a.toNat % 0x200 := by
  rw [shapeCell_shapeIndex, if_neg (Nat.not_lt.mpr h)]
  omega

/-- With bit 11 set, the cell is the address under the mask 0x9FF, so addresses that agree under it are aliases. -/
theorem shapeCell_shapeIndex_of_bit11 {a : Word} (h : a.getLsbD 11 = true) :
    shapeCell (shapeIndex a) = (a &&& 0x9FF).toNat := by
  have hbit : a.toNat.testBit 11 = true := h
  have hram : 0x800 ≤ a.toNat % 0x1000 := by
    rw [← shapeIndex_toNat]
    exact Nat.ge_two_pow_of_testBit (i := 11) (by simp [shapeIndex_toNat, Nat.testBit_mod_two_pow _ 12, hbit])
  calc shapeCell (shapeIndex a) = 2 ^ 11 * 1 + a.toNat % 2 ^ 9 := shapeCell_shapeIndex_ram hram
    _ = 2 ^ 11 ||| a.toNat % 2 ^ 9 := Nat.two_pow_add_eq_or_of_lt (by omega) 1
    _ = a.toNat &&& (2 ^ 11 ||| 2 ^ 9 - 1) := by
      rw [Nat.and_or_distrib_left, Nat.and_two_pow, hbit, Bool.toNat_true, Nat.one_mul, Nat.and_two_pow_sub_one_eq_mod]
    _ = (a &&& 0x9FF).toNat := (BitVec.toNat_and a 0x9FF).symm

/-! ## What a shape write does to each cell (R142, R144, R145) -/

theorem State.shapeWrite_of_rom {a : Word} (h : (shapeIndex a).toNat < 0x800) (v : Word) : s.shapeWrite a v = s := if_pos h

/-- A shape write touches no cell but the RAM cell of its address. -/
theorem State.shapeWrite_read_other {a : Word} {n : Nat}
    (h : 0x800 ≤ (shapeIndex a).toNat → n ≠ shapeCell (shapeIndex a)) (v : Word) :
    (s.shapeWrite a v).mem.read n = s.mem.read n := by
  unfold State.shapeWrite
  split
  · rfl
  · next hram =>
    split
    · rfl
    · exact Memory.read_write_other _ (h (Nat.not_lt.mp hram)) _

theorem State.shapeWrite_read (hs : s.MemCanonical) {a : Word} (h : 0x800 ≤ (shapeIndex a).toNat) (v : Word) (n : Nat) :
    (s.shapeWrite a v).mem.read n = if n = shapeCell (shapeIndex a) then v.setWidth 8 else s.mem.read n := by
  split
  · next hn =>
    rw [hn]
    exact (s.shapeWrite_shapeValue hs a v (shapeIndex a)).trans (if_pos ⟨h, rfl⟩)
  · next hn => exact s.shapeWrite_read_other (fun _ => hn) v

theorem State.shapeWrite_read_rom (a v : Word) {n : Nat} (hn : n < 0x800) :
    (s.shapeWrite a v).mem.read n = s.mem.read n := by
  refine s.shapeWrite_read_other (fun hram => ?_) v
  rw [shapeCell_ram hram]
  omega

theorem State.shapeWrite_frame (a v : Word) :
    s.shapeWrite a v = { s with mem := (s.shapeWrite a v).mem, shapeDirty := (s.shapeWrite a v).shapeDirty } := by
  unfold State.shapeWrite
  split
  · rfl
  · split <;> rfl

/-! ## The operations: one equation each -/

theorem exec_rdS (a : Word) (t : Nat) :
    exec (.rdS a t) s =
      .next (s.emit (.value (if s.honoured .mem t then s.shapeWord (shapeIndex a) else s.shapeGarbage a))) := rfl

theorem exec_peekS (a : Word) : exec (.peekS a) s = .next (s.emit (.value (s.shapeWord (shapeIndex a)))) := rfl

theorem exec_wrS (a v : Word) (t : Nat) :
    exec (.wrS a v t) s = .next (if s.honoured .mem t then s.shapeWrite a v else s) := rfl

theorem exec_pokeS (a v : Word) : exec (.pokeS a v) s = .next (s.shapeWrite a v) := rfl

/-! ## Who writes shape memory (R145) -/

/-- Shape memory is written by shape writes alone. -/
theorem Effect.mem_cases {s t : State} {i : Instr} (h : Effect s i t) :
    t.mem = s.mem ∨ ∃ a v, t.mem = (s.shapeWrite a v).mem := by
  cases h with
  | shape => exact .inr ⟨_, _, rfl⟩
  | alike h => exact .inl h.mem
  | modeRead _ h => exact .inl (h.mem.trans (s.modeSet_mem .cs))
  | selected => exact .inl (s.writeSelected_mem _ _)
  | stored => exact .inl (s.store_mem _ _)
  | latched => exact .inl s.latchEnable_mem
  | captured _ h => exact .inl h.mem
  | reset => exact .inl (by simp)

/-! ## The reads, the writes and the read-only half -/

/-- Settles O35: a read hands out the word of the cell its index reaches, inside the window; under bit 11 that cell is the address
under the mask 0x9FF. -/
theorem shapeReads : Obligations.ShapeReads := by
  refine ⟨fun s a t => ⟨fun hg => ?_, fun hg => ?_, ?_⟩, fun s j => congrArg s.mem.read (shapeCell_eq j),
    fun s a b ha hb hab => ?_⟩
  · rw [exec_rdS, if_pos hg, State.shapeWord_shapeIndex]; rfl
  · rw [exec_rdS, if_neg (Bool.eq_false_iff.mp hg)]; rfl
  · rw [exec_peekS, State.shapeWord_shapeIndex]; rfl
  · have hcell : shapeCell (shapeIndex a) = shapeCell (shapeIndex b) := by
      rw [shapeCell_shapeIndex_of_bit11 ha, shapeCell_shapeIndex_of_bit11 hb, hab]
    rw [exec_peekS, exec_peekS, State.shapeWord, State.shapeWord, State.shapeValue, State.shapeValue, hcell]

/-- Settles O36: the poke is the shape write of its address, and the honoured write is the same one. -/
theorem shapeWrites : Obligations.ShapeWrites := by
  intro s a v t hs i
  refine ⟨fun hram => ?_, fun hrom => ?_⟩
  · have hindex : 0x800 ≤ (shapeIndex a).toNat := by rwa [shapeIndex_toNat]
    have hcell := shapeCell_shapeIndex_ram hram
    refine ⟨_, exec_pokeS s a v, exec_wrS s a v t, fun n => ?_, (s.shapeWrite_frame a v).trans ?_⟩
    · rw [s.shapeWrite_read hs hindex, hcell]
    · rw [State.shapeWrite_shapeDirty, decide_eq_true hindex, Bool.true_and, State.shapeValue, hcell]
  · have hsame := s.shapeWrite_of_rom (by rwa [shapeIndex_toNat]) v
    rw [exec_pokeS, exec_wrS, hsame, ite_self]
    exact ⟨rfl, rfl⟩

/-- Settles O37: shape writes alone write shape memory, and none of them a cell below 0x800. -/
theorem romNeverChanges : Obligations.RomNeverChanges := fun s _ hstep n hn => by
  refine step_keeps (P := fun u => u.mem.read n = s.mem.read n) (fun _ _ _ hu => hu)
    (fun {u _ _} hu heffect => ?_) rfl hstep
  obtain hmem | ⟨a, v, hmem⟩ := heffect.mem_cases
  · rw [hmem, hu]
  · rw [hmem, u.shapeWrite_read_rom a v hn, hu]

end Sys2Proof.Machine
end

section
/-! PROOF. The tile tables and the capture (42_tile_capture): first one equation per operation and per outcome of `EV.CAPROW`, and
the statements about single operations; then who writes the visible table and what a render reads, and a whole frame capture. -/

namespace Sys2Proof.Machine

variable (s : State)

/-! ## The staging buffer (R160, R161) -/

theorem exec_wrT {k : Word} (hk : k.toNat < 240) (v : Word) (t : Nat) :
    exec (.wrT k v t) s = .next { s with staging := s.staging.set k.toNat v hk } :=
  congrArg Host.Outcome.next (dif_pos hk)

/-- An index outside the buffer is dropped. -/
theorem exec_wrT_of_le {k : Word} (hk : 240 ≤ k.toNat) (v : Word) (t : Nat) : exec (.wrT k v t) s = .next s :=
  congrArg Host.Outcome.next (dif_neg (Nat.not_lt.mpr hk))

theorem exec_peekT (k : Word) :
    exec (.peekT k) s = .next (s.emit (.value (if k.toNat < 240 then entry s.staging k.toNat else 0xFFFF))) := rfl

/-- Settles O38: a write inside the buffer sets one entry of `staging`, the only field it touches. -/
theorem stagingAccess : Obligations.StagingAccess := fun s k v t =>
  ⟨fun hk => ⟨_, exec_wrT s hk v t, fun j _ => entry_set s.staging k.toNat v hk j, rfl⟩,
    fun hk => exec_wrT_of_le s hk v t, exec_peekT s k⟩

/-! ## The latch and the start of a capture (R170, R171) -/

/-- A bus request is handed out only while video is enabled (R174). -/
theorem State.requestBus_eq (k : BusRequest) :
    s.requestBus k = { s with out := s.out ++ if s.liveEnable then [.busRequest k] else [] } := by
  unfold State.requestBus
  split
  · rfl
  · rw [List.append_nil]

theorem exec_evLatch : exec .evLatch s = .next s.latchEnable := rfl

theorem exec_evCapstart :
    exec .evCapstart s = .next (State.requestBus { s with cursor := 0, firstAfterStart := true } .short) := rfl

/-- Settles O39: the latch is `latchEnable`. -/
theorem latchLoadsEnable : Obligations.LatchLoadsEnable := exec_evLatch

/-- Settles O40: the bus request reads the live enable, which the start of a capture leaves. -/
theorem captureStartResetsCursor : Obligations.CaptureStartResetsCursor := fun s => by
  rw [exec_evCapstart, State.requestBus_eq]

/-! ## The capture of one row (R172) -/

theorem State.captureCursor_eq (ack : Bool) :
    s.captureCursor ack = if s.firstAfterStart = false ∧ ack = true then s.cursor + 20 else s.cursor := by
  unfold State.captureCursor
  cases s.firstAfterStart <;> simp

/-- The state after a row captured without a fault, the bus request not yet made. -/
def State.captureRow (s : State) (row : Nat) (ack : Bool) : State :=
  { s with
    cursor := s.captureCursor ack
    firstAfterStart := false
    visible := copyRow s.staging s.visible (s.captureCursor ack) row }

/-- A phase with no row is a fault, whatever the cursor (60_exceptions R343). -/
theorem exec_evCaprow_badPhase {p : BitVec 4} (hp : p.toNat < 3 ∨ 14 < p.toNat) (ack : Bool) :
    exec (.evCaprow p ack) s = .fault (.badPhase p) := if_pos hp

theorem exec_evCaprow_of_phase {p : BitVec 4} (hlow : 3 ≤ p.toNat) (hhigh : p.toNat ≤ 14) (ack : Bool) :
    exec (.evCaprow p ack) s =
      if s.firstAfterStart = false ∧ ack = true ∧ 220 < s.cursor + 20 then .fault .cursorOverrun
      else .next ((s.captureRow (p.toNat - 3) ack).requestBus (if p = 14 then .shortened else .full)) :=
  if_neg (by omega)

/-- Settles O42: the phase is tested before the cursor. -/
theorem captureRowFaults : Obligations.CaptureRowFaults := fun s _ ack =>
  ⟨fun hp => exec_evCaprow_badPhase s hp ack, fun hlow hhigh hfirst hack hover =>
    (exec_evCaprow_of_phase s hlow hhigh ack).trans (if_pos ⟨hfirst, hack, hover⟩)⟩

/-- Settles O41: the row copy writes the 20 entries of its row, from the cursor of `captureCursor`. -/
theorem captureRowCopies : Obligations.CaptureRowCopies := by
  intro s p ack hlow hhigh hroom c
  have hexec := exec_evCaprow_of_phase s hlow hhigh ack
  rw [if_neg fun ⟨hfirst, hack, hover⟩ => Nat.not_lt.mpr (hroom hfirst hack) hover] at hexec
  have hcursor : s.captureCursor ack = c := s.captureCursor_eq ack
  have hlast : p = 14 ↔ p.toNat = 14 := BitVec.toNat_inj.symm
  refine ⟨_, hexec, fun k hk => ?_, ?_⟩
  · rw [State.requestBus_visible, State.captureRow, entry_copyRow _ _ _ _ _ hk, hcursor]
  · simp only [State.requestBus_eq, State.captureRow, hcursor, hlast]

/-! ## Who writes the visible table (R175) -/

@[simp] theorem State.writeHigh_visible (a v : Word) : (s.writeHigh a v).visible = s.visible := by
  obtain h | ⟨-, h⟩ := s.writeHigh_cases a v
  · rw [h]
  · rw [h, State.writeSelected_visible]

@[simp] theorem State.syntheticWrites_visible : s.syntheticWrites.visible = s.visible := by rw [State.syntheticWrites_frame]

@[simp] theorem State.renderFrame_visible (drop : Bool) : (s.renderFrame drop).visible = s.visible := by
  cases drop <;> simp [State.renderFrame, State.renderPlanes, State.showFrame]

theorem exec_evReset : exec .evReset s = .next s.zeroRegs.syntheticWrites.resetControl := rfl

theorem exec_evRender (drop : Bool) :
    exec (.evRender drop) s = .next (if s.liveEnable then s.renderFrame drop else s).sinkReport := rfl

/-- A guarded update keeps the visible table when the update does. -/
theorem visible_ite {c : Prop} [Decidable c] {s u : State} (hu : u.visible = s.visible) :
    (if c then u else s).visible = s.visible := by
  split
  · exact hu
  · rfl

/-- An operation captures a row or leaves the visible table. -/
theorem exec_visible {i : Instr} {s t : State} (h : exec i s = .next t) :
    (∃ p ack, i = .evCaprow p ack) ∨ t.visible = s.visible := by
  cases i with
  | evCaprow p ack => exact .inl ⟨p, ack, rfl⟩
  | rdRMode n =>
    cases hg : s.honoured .reg n with
    | true => cases (exec_rdRMode_of_honoured hg).symm.trans h; exact .inr (s.modeSet_visible .cs)
    | false => cases (exec_rdRMode_of_dropped hg).symm.trans h; exact .inr rfl
  | rdRReg | rdRShape | rdRAlias | peekR | rdS | peekS | peekT => cases h; exact .inr rfl
  | wrRDe v => cases h; exact .inr (visible_ite (s.writeSelected_de v ▸ s.writeSelected_visible _ v))
  | wrRMode v => cases h; exact .inr (visible_ite (s.writeSelected_modeRegister v ▸ s.writeSelected_visible _ v))
  | wrRBorder v => cases h; exact .inr (visible_ite (s.writeSelected_border v ▸ s.writeSelected_visible _ v))
  | wrRReg a v => cases h; exact .inr (visible_ite (s.store_visible a v))
  | wrRHigh a v => cases h; exact .inr (visible_ite (s.writeHigh_visible a v))
  | wrS a v => cases h; exact .inr (visible_ite (s.shapeWrite_visible a v))
  | pokeR a v => cases h; exact .inr (s.writeSelected_visible a v)
  | pokeRHigh a v => cases h; exact .inr (s.writeHigh_visible a v)
  | pokeS a v => cases h; exact .inr (s.shapeWrite_visible a v)
  | wrT k v n =>
    obtain hk | hk := Nat.lt_or_ge k.toNat 240
    · cases (exec_wrT s hk v n).symm.trans h; exact .inr rfl
    · cases (exec_wrT_of_le s hk v n).symm.trans h; exact .inr rfl
  | evReset =>
    rw [exec_evReset, Host.Outcome.next.injEq] at h
    exact .inr (by simp [← h])
  | evRender drop => cases h; exact .inr (visible_ite (s.renderFrame_visible drop))
  | evLatch => cases h; exact .inr rfl
  | evCapstart => cases h; exact .inr (State.requestBus_visible _ _)
  | evDeadline target => cases target <;> cases h <;> exact .inr rfl
  | evIso => cases h; exact .inr rfl
  | evColl => cases h; exact .inr (s.store_visible _ _)

/-! ## What a render reads (R175) -/

/-- The state with another staging buffer. -/
def State.withStaging (s : State) (v : Vector Word 240) : State := { s with staging := v }

variable (v : Vector Word 240)

theorem State.tileRender_withStaging : (s.withStaging v).tileRender = s.tileRender.withStaging v := rfl

theorem State.buildSprites_withStaging : (s.withStaging v).buildSprites = s.buildSprites.withStaging v := rfl

theorem State.clearPlanes_withStaging : (s.withStaging v).clearPlanes = s.clearPlanes.withStaging v := rfl

theorem State.composite_withStaging : (s.withStaging v).composite = s.composite.withStaging v := rfl

theorem State.edgeFixup_withStaging : (s.withStaging v).edgeFixup = s.edgeFixup.withStaging v := rfl

theorem State.showFrame_withStaging : (s.withStaging v).showFrame = s.showFrame.withStaging v := rfl

theorem State.emitColl_withStaging : (s.withStaging v).emitColl = s.emitColl.withStaging v := rfl

theorem State.sinkReport_withStaging : (s.withStaging v).sinkReport = s.sinkReport.withStaging v := rfl

theorem State.renderPlanes_withStaging (drop : Bool) :
    (s.withStaging v).renderPlanes drop = (s.renderPlanes drop).withStaging v := by
  cases drop <;> simp only [State.renderPlanes, State.tileRender_withStaging, State.buildSprites_withStaging,
    State.clearPlanes_withStaging, State.composite_withStaging, State.edgeFixup_withStaging, if_true, if_false,
    Bool.false_eq_true]

theorem State.renderFrame_withStaging (drop : Bool) :
    (s.withStaging v).renderFrame drop = (s.renderFrame drop).withStaging v := by
  cases drop <;> simp only [State.renderFrame, State.renderPlanes_withStaging, State.showFrame_withStaging,
    State.emitColl_withStaging, if_true, if_false, Bool.false_eq_true]

/-- Settles O44: no operation but a row capture writes the visible table, and every stage of a render commutes with an exchange of
the staging buffer. -/
theorem bufferIsolation : Obligations.BufferIsolation := by
  refine ⟨fun i s t h hne => (exec_visible h).resolve_right hne, fun s drop other => ⟨_, exec_evRender s drop, ?_⟩⟩
  change exec (.evRender drop) (s.withStaging other) = .next (State.withStaging _ other)
  rw [exec_evRender, ← State.sinkReport_withStaging, State.renderFrame_withStaging]
  congr 2
  exact (apply_ite (State.withStaging · other) _ _ _).symm

/-! ## A whole frame capture (R172, 70_reset_and_hazards R384) -/

/-- How many of the captures of rows 1 to `r` are acknowledged. -/
def ackedRows (acks : Nat → Bool) (r : Nat) : Nat := (List.range r).countP fun j => acks (j + 1)

theorem ackedRows_succ (acks : Nat → Bool) (r : Nat) :
    ackedRows acks (r + 1) = if acks (r + 1) = true then ackedRows acks r + 1 else ackedRows acks r := by
  rw [ackedRows, List.range_succ, List.countP_append, List.countP_singleton]
  split <;> rfl

theorem ackedRows_le (acks : Nat → Bool) (r : Nat) : ackedRows acks r ≤ r :=
  List.countP_le_length.trans_eq List.length_range

theorem ackedRows_of_all {acks : Nat → Bool} (h : ∀ j, acks j = true) (r : Nat) : ackedRows acks r = r :=
  (List.countP_eq_length.mpr fun j _ => h (j + 1)).trans List.length_range

/-- `u` is the state after the captures of the first `n` rows since the start of a capture in `s`: the cursor stands at the staging
row that visible row `n - 1` shows. -/
structure State.RowsCaptured (s : State) (acks : Nat → Bool) (n : Nat) (u : State) : Prop where
  staging : u.staging = s.staging
  first : u.firstAfterStart = decide (n = 0)
  cursor : u.cursor = 20 * ackedRows acks (n - 1)
  rows : ∀ r < n, ∀ c < 20, entry u.visible (20 * r + c) = entry s.staging (20 * ackedRows acks r + c)

variable {s} {acks : Nat → Bool} {n : Nat} {u : State}

/-- The staging row that the next capture copies: the acknowledge of row 0 does not count, it is the first after the start. -/
theorem State.RowsCaptured.next_cursor (h : s.RowsCaptured acks n u) :
    (if u.firstAfterStart = false ∧ acks n = true then u.cursor + 20 else u.cursor) = 20 * ackedRows acks n := by
  rw [h.first, h.cursor]
  cases n with
  | zero => rfl
  | succ n =>
    rw [ackedRows_succ]
    by_cases hack : acks (n + 1) = true <;> simp [hack, Nat.mul_succ]

/-- Eleven rows are acknowledged at most, so the cursor never passes the last staging row. -/
theorem State.RowsCaptured.cursor_room (h : s.RowsCaptured acks n u) (hn : n < 12) (hfirst : u.firstAfterStart = false) :
    u.cursor + 20 ≤ 220 := by
  have hpos : n ≠ 0 := by simpa [h.first] using hfirst
  have hle := ackedRows_le acks (n - 1)
  rw [h.cursor]
  omega

theorem State.RowsCaptured.capture (h : s.RowsCaptured acks n u) (hn : n < 12) :
    ∃ t, exec (.evCaprow (BitVec.ofNat 4 (n + 3)) (acks n)) u = .next t ∧ s.RowsCaptured acks (n + 1) t := by
  have hphase : (BitVec.ofNat 4 (n + 3)).toNat = n + 3 := Nat.mod_eq_of_lt (by omega)
  obtain ⟨t, hexec, hvisible, hframe⟩ := captureRowCopies u (BitVec.ofNat 4 (n + 3)) (acks n) (by omega) (by omega)
    fun hfirst _ => h.cursor_room hn hfirst
  rw [h.next_cursor] at hvisible hframe
  refine ⟨t, hexec, by rw [hframe]; exact h.staging, by rw [hframe]; rfl, by rw [hframe]; rfl, fun r hr c hc => ?_⟩
  have hrow : (20 * r + c) / 20 = r := by omega
  have hcolumn : (20 * r + c) % 20 = c := by omega
  rw [hvisible _ (by omega), hphase, hrow, hcolumn, h.staging]
  split
  · next heq => rw [heq, Nat.add_sub_cancel]
  · next hne => exact h.rows r (by omega) c hc

theorem runOps_append {xs : List Instr} {s t : State} (h : runOps xs s = .next t) (ys : List Instr) :
    runOps (xs ++ ys) s = runOps ys t := by
  induction xs generalizing s with
  | nil => cases h; rfl
  | cons i xs ih =>
    simp only [runOps, List.cons_append] at h ⊢
    cases hexec : exec i s with
    | next u =>
      simp only [hexec] at h
      exact ih h
    | fault => simp [hexec] at h
    | refused => simp [hexec] at h

/-- The captures of the first `n` rows complete. -/
theorem State.RowsCaptured.run (h : s.RowsCaptured acks 0 u) (hn : n ≤ 12) :
    ∃ t, runOps ((List.range n).map fun j => .evCaprow (BitVec.ofNat 4 (j + 3)) (acks j)) u = .next t ∧
      s.RowsCaptured acks n t := by
  induction n with
  | zero => exact ⟨u, rfl, h⟩
  | succ n ih =>
    obtain ⟨t, hrun, ht⟩ := ih (by omega)
    obtain ⟨t', hexec, ht'⟩ := ht.capture (by omega)
    refine ⟨t', ?_, ht'⟩
    rw [List.range_succ, List.map_append, runOps_append hrun]
    simp only [List.map_cons, List.map_nil, runOps, hexec]

theorem frameCapture_rowsCaptured (s : State) (acks : Nat → Bool) :
    ∃ u, runOps (frameCapture acks) s = .next u ∧ s.RowsCaptured acks 12 u := by
  have hstart : s.RowsCaptured acks 0 (State.requestBus { s with cursor := 0, firstAfterStart := true } .short) :=
    ⟨by simp, by simp, by simp [ackedRows], fun r hr => absurd hr r.not_lt_zero⟩
  obtain ⟨u, hrun, hu⟩ := hstart.run le_rfl
  refine ⟨u, ?_, hu⟩
  rw [frameCapture, runOps, exec_evCapstart]
  exact hrun

/-- Settles O45: by the captures row by row; with every row acknowledged, row `r` shows staging row `r`. -/
theorem frameCaptureFollowsAcks : Obligations.FrameCaptureFollowsAcks := fun s acks => by
  obtain ⟨u, hrun, hu⟩ := frameCapture_rowsCaptured s acks
  refine ⟨u, hrun, hu.rows, fun hall => ⟨table_ext fun k hk => ?_, ?_⟩⟩
  · have hrow := hu.rows (k / 20) (by omega) (k % 20) (Nat.mod_lt k (by decide))
    rwa [ackedRows_of_all hall, Nat.div_add_mod] at hrow
  · rw [hu.cursor, ackedRows_of_all hall]

end Sys2Proof.Machine
end

section
/-! PROOF. The expansion tables (43_expansion_luts): one rule per table, bit by bit for the rows (R191 to R193), pixel by pixel for
the packed words (R190, R194 to R196), beside those of Laws/Expand.lean. -/

namespace Sys2Proof.Machine

/-! ## Rows (R191 to R193) -/

theorem getLsbD_rev8 (b : Byte) {i : Nat} (hi : i < 8) : (rev8 b).getLsbD i = b.getLsbD (7 - i) := by
  simp [rev8, hi]

theorem getLsbD_dbl8 (b : Byte) {n : Nat} (hn : n < 16) : (dbl8 b).getLsbD n = b.getLsbD (n / 2) := by
  simp [dbl8, hn]

/-- A doubled row from the left: column `c` shows pixel `c / 2` of the byte. -/
theorem getLsbD_dbl8_column (b : Byte) {c : Nat} (hc : c < 16) : (dbl8 b).getLsbD (15 - c) = b.getLsbD (7 - c / 2) := by
  have hbit : (15 - c) / 2 = 7 - c / 2 := by omega
  rw [getLsbD_dbl8 b (by omega), hbit]

/-- An 8-wide row from the left: it fills columns 0 to 7 (decision D23). -/
theorem getLsbD_plainRow_column (b : Byte) {c : Nat} (hc : c < 16) :
    (b.setWidth 16 <<< 8).getLsbD (15 - c) = (decide (c < 8) && b.getLsbD (7 - c)) := by
  by_cases hleft : c < 8
  · have hge : ¬ 15 - c < 8 := by omega
    have hbit : 15 - c - 8 = 7 - c := by omega
    have hlt : 15 - c < 16 := by omega
    simp [hleft, hge, hbit, hlt]
  · have hlow : 15 - c < 8 := by omega
    simp [hleft, hlow]

/-- A flipped byte from the left: pixel `c` is bit `c` of the byte. -/
theorem getLsbD_rev8_column (b : Byte) {c : Nat} (hc : c < 8) : (rev8 b).getLsbD (7 - c) = b.getLsbD c := by
  rw [getLsbD_rev8 b (by omega), Nat.sub_sub_self (by omega)]

theorem getLsbD_remap_plain (b : Byte) {c : Nat} (hc : c < 16) :
    (remap b false false).getLsbD (15 - c) = (decide (c < 8) && b.getLsbD (7 - c)) := getLsbD_plainRow_column b hc

theorem getLsbD_remap_flipped (b : Byte) {c : Nat} (hc : c < 16) :
    (remap b false true).getLsbD (15 - c) = (decide (c < 8) && b.getLsbD c) := by
  rw [remap, getLsbD_plainRow_column _ hc]
  by_cases hleft : c < 8
  · rw [getLsbD_rev8_column b hleft]
  · simp [hleft]

theorem getLsbD_remap_doubled (b : Byte) {c : Nat} (hc : c < 16) :
    (remap b true false).getLsbD (15 - c) = b.getLsbD (7 - c / 2) := getLsbD_dbl8_column b hc

theorem getLsbD_remap_doubledFlipped (b : Byte) {c : Nat} (hc : c < 16) :
    (remap b true true).getLsbD (15 - c) = b.getLsbD (c / 2) := by
  rw [remap, getLsbD_dbl8_column _ hc, getLsbD_rev8_column b (by omega)]

/-! ## Masks (R190, R194) -/

theorem pixel_expand8 (b : Byte) {k : Nat} (hk : k < 8) : pixel (expand8 b) k = if b.getLsbD (7 - k) then 0xF else 0 := by
  have hbits : pixel (expand8 b) k = BitVec.fill 4 (b.getLsbD (7 - k)) := by
    refine BitVec.eq_of_getLsbD_eq fun j hj => ?_
    have hlt : 28 - 4 * k + j < 32 := by omega
    have hnibble : (28 - 4 * k + j) / 4 = 7 - k := by omega
    rw [getLsbD_pixel]
    simp [expand8, hj, hlt, hnibble]
  rw [hbits]
  cases b.getLsbD (7 - k) <;> rfl

theorem pixel_expand16_fst (r : Word) {k : Nat} (hk : k < 8) :
    pixel (expand16 r).1 k = if r.getLsbD (15 - k) then 0xF else 0 := by
  have hbit : 8 + (7 - k) = 15 - k := by omega
  have hlt : 7 - k < 8 := by omega
  rw [expand16, pixel_expand8 _ hk, BitVec.getLsbD_extractLsb', hbit, decide_eq_true hlt, Bool.true_and]

theorem pixel_expand16_snd (r : Word) {k : Nat} (hk : k < 8) :
    pixel (expand16 r).2 k = if r.getLsbD (7 - k) then 0xF else 0 := by
  have hlt : 7 - k < 8 := by omega
  rw [expand16, pixel_expand8 _ hk, BitVec.getLsbD_extractLsb', Nat.zero_add, decide_eq_true hlt, Bool.true_and]

/-! ## Colours (R195): the word operations act on each pixel by itself -/

theorem pixel_and (v w : Packed) (k : Nat) : pixel (v &&& w) k = pixel v k &&& pixel w k := BitVec.extractLsb'_and

theorem pixel_or (v w : Packed) (k : Nat) : pixel (v ||| w) k = pixel v k ||| pixel w k := BitVec.extractLsb'_or

theorem pixel_not (w : Packed) {k : Nat} (hk : k < 8) : pixel (~~~w) k = ~~~(pixel w k) := by
  refine BitVec.eq_of_getLsbD_eq fun j hj => ?_
  have hlt : 28 - 4 * k + j < 32 := by omega
  simp only [getLsbD_pixel, BitVec.getLsbD_not, hj, hlt, decide_true, Bool.true_and]

/-- `COLOUR` for any mask, the nibbles of which need not be all ones or all zeros. -/
theorem pixel_colourWord_mask (m : Packed) (f g : Colour) {k : Nat} (hk : k < 8) :
    pixel (colourWord m f g) k = (pixel m k &&& f) ||| (~~~(pixel m k) &&& g) := by
  rw [colourWord, pixel_or, pixel_and, pixel_and, pixel_not m hk, pixel_fillWord f hk, pixel_fillWord g hk]

/-! ## Unpacking (R196) -/

theorem length_unpackWord (w : Packed) : (unpackWord w).length = 8 := rfl

/-- The bytes in screen order are the pixels from the left. -/
theorem unpackWord_eq_map_pixel (w : Packed) : unpackWord w = (List.range 8).map fun k => (pixel w k).setWidth 8 := by
  refine List.ext_getElem (by rw [length_unpackWord, List.length_map, List.length_range]) fun k hk _ => ?_
  rw [List.getElem_map, List.getElem_range, ← getD_unpackWord w (length_unpackWord w ▸ hk), List.getD_eq_getElem _ _ hk]

/-- The uniform round trip of R196. -/
theorem unpackWord_fillWord (c : Colour) : unpackWord (fillWord c) = List.replicate 8 (c.setWidth 8) := by
  refine List.eq_replicate_iff.mpr ⟨length_unpackWord _, fun x hx => ?_⟩
  rw [unpackWord_eq_map_pixel] at hx
  obtain ⟨k, hk, rfl⟩ := List.mem_map.mp hx
  rw [pixel_fillWord c (List.mem_range.mp hk)]

/-- Settles O59: table by table. -/
theorem expansionTables : Obligations.ExpansionTables :=
  ⟨fun b _ hk => pixel_expand8 b hk,
    fun b i hi => ⟨getLsbD_rev8 b hi, by rw [getLsbD_dbl8 b (by omega), Nat.mul_div_cancel_left i two_pos],
      by rw [getLsbD_dbl8 b (by omega)]; congr 1; omega⟩,
    fun b _ hc => ⟨getLsbD_remap_plain b hc, getLsbD_remap_flipped b hc, getLsbD_remap_doubled b hc,
      getLsbD_remap_doubledFlipped b hc⟩,
    fun r _ hk => ⟨pixel_expand16_fst r hk, pixel_expand16_snd r hk⟩,
    fun m f g _ hk => ⟨pixel_fillWord f hk, pixel_colourWord_mask m f g hk⟩,
    unpackWord_eq_map_pixel, unpackWord_fillWord⟩

end Sys2Proof.Machine
end

section
/-! PROOF. The tile renderer's cards (44_tile_renderer): first the planes a whole render leaves outside the seed cells, then the
background of a card (R213, R216), then one rule per way a card is drawn (R212, R215), and from these the pixels of each kind of
card. -/

namespace Sys2Proof.Machine

variable (s : State)

/-! ## From the tile stage to the end of the render (46_edge_merge_unpack R320) -/

section Pipeline

theorem State.hDelay_congr {s u : State} (hc : u.cfg = s.cfg) (hr : u.regs = s.regs) : u.hDelay = s.hDelay := by
  rw [State.hDelay, State.reg_congr hr, hc, ← State.hDelay]

theorem State.vDelay_congr {s u : State} (hc : u.cfg = s.cfg) (hr : u.regs = s.regs) : u.vDelay = s.vDelay := by
  rw [State.vDelay, State.reg_congr hr, hc, ← State.vDelay]

@[simp] theorem State.sinkReport_tc : s.sinkReport.tc = s.tc := rfl

@[simp] theorem State.sinkReport_tf : s.sinkReport.tf = s.tf := rfl

@[simp] theorem State.sinkReport_lastBg : s.sinkReport.lastBg = s.lastBg := rfl

variable (drop : Bool) {x y : Nat}

/-- After the tile stage only the seeding writes `TC`, and no card pixel of it. -/
theorem State.renderFrame_tc_get (hx : x < 168) (hy : y < 104) (hseed : isSeed x y = false) :
    (s.renderFrame drop).tc.get x y = s.tileRender.tc.get x y := by
  have hplanes : (s.renderPlanes drop).tc = s.tileRender.tc := by cases drop <;> simp [State.renderPlanes]
  cases drop with
  | true => rw [State.renderFrame, if_pos rfl, State.emitColl_tc, hplanes]
  | false =>
    rw [← hplanes, ← ((s.renderPlanes false).seedCells_get x y hx hy hseed).1]
    simp [State.renderFrame, State.showFrame]

theorem State.renderPlanes_tf_get (hx : x < 168) (hy : y < 104) :
    (s.renderPlanes drop).tf.get x y =
      (s.tileRender.tf.get x y && !decide (167 < x + s.hDelay ∨ 103 < y + s.vDelay)) := by
  have hfixup {u : State} (hc : u.cfg = s.cfg) (hr : u.regs = s.regs) (htf : u.tf = s.tileRender.tf) :
      u.edgeFixup.tf.get x y = (s.tileRender.tf.get x y && !decide (167 < x + s.hDelay ∨ 103 < y + s.vDelay)) := by
    rw [u.edgeFixup_tf_get x y hx hy, State.hDelay_congr hc hr, State.vDelay_congr hc hr, htf, Bool.and_comm]
  cases drop <;> exact hfixup (by simp) (by simp) (by simp)

/-- After the tile stage the edge fixup clears `TF` where the delay pushes it off the picture, and the seeding writes no card
pixel of it. -/
theorem State.renderFrame_tf_get (hx : x < 168) (hy : y < 104) (hseed : isSeed x y = false) :
    (s.renderFrame drop).tf.get x y =
      (s.tileRender.tf.get x y && !decide (167 < x + s.hDelay ∨ 103 < y + s.vDelay)) := by
  rw [← s.renderPlanes_tf_get drop hx hy]
  cases drop with
  | true => rfl
  | false =>
    rw [← ((s.renderPlanes false).seedCells_get x y hx hy hseed).2]
    simp [State.renderFrame, State.showFrame]

@[simp] theorem State.renderFrame_lastBg : (s.renderFrame drop).lastBg = s.tileRender.lastBg := by
  cases drop <;> simp [State.renderFrame, State.renderPlanes, State.showFrame]

/-- `last_bg` of a card row is the background of its last card (R217). -/
theorem State.tileRender_lastBg {k : Nat} (hk : k < 240) (hlast : k % 20 = 19) :
    entry s.tileRender.lastBg (k / 20) = s.background k := by
  have hcard : 20 * (k / 20) + 19 = k := by omega
  rw [State.tileRender, entry_tab, if_pos (by omega), hcard]

end Pipeline

/-! ## The place of a card in the planes (R211) -/

section Place

variable {k r p : Nat}

theorem isSeed_of_card : isSeed (8 * (k % 20 + 1) + p) (8 * (k / 20 + 1) + r) = false := by
  simp only [isSeed, Bool.or_eq_false_iff, decide_eq_false_iff_not]
  omega

theorem cardAt_of_card (hr : r < 8) (hp : p < 8) : cardAt (8 * (k % 20 + 1) + p) (8 * (k / 20 + 1) + r) = k := by
  rw [cardAt]
  omega

end Place

/-- After a render the planes show row `r`, pixel `p` of card `k` as it is drawn, `TF` up to the edge fixup
(46_edge_merge_unpack R291, decision D26), and `last_bg` shows its background if it ends a row. -/
theorem exec_evRender_card {s u : State} {drop : Bool} {k r p : Nat} (hlive : s.liveEnable = true)
    (hexec : exec (.evRender drop) s = .next u) (hk : k < 240) (hr : r < 8) (hp : p < 8) :
    u.tc.get (8 * (k % 20 + 1) + p) (8 * (k / 20 + 1) + r) = pixel (entry (s.drawCard k) r).px p ∧
    u.tf.get (8 * (k % 20 + 1) + p) (8 * (k / 20 + 1) + r) =
      ((entry (s.drawCard k) r).fg.getLsbD (7 - p) &&
        !decide (167 < 8 * (k % 20 + 1) + p + s.hDelay ∨ 103 < 8 * (k / 20 + 1) + r + s.vDelay)) ∧
    (k % 20 = 19 → entry u.lastBg (k / 20) = s.background k) := by
  rw [exec_evRender, if_pos hlive, Host.Outcome.next.injEq] at hexec
  subst hexec
  have hx : 8 * (k % 20 + 1) + p < 168 := by omega
  have hy : 8 * (k / 20 + 1) + r < 104 := by omega
  have hrow : (8 * (k / 20 + 1) + r) % 8 = r := by omega
  have hcolumn : (8 * (k % 20 + 1) + p) % 8 = p := by omega
  have hseed := isSeed_of_card (k := k) (r := r) (p := p)
  refine ⟨?_, ?_, fun hlast => ?_⟩
  · simp only [State.sinkReport_tc, s.renderFrame_tc_get drop hx hy hseed, s.tileRender_tc_get _ _ hx hy, hseed,
      cardAt_of_card hr hp, hrow, hcolumn, Bool.false_eq_true, if_false]
  · simp only [State.sinkReport_tf, s.renderFrame_tf_get drop hx hy hseed, s.tileRender_tf_get _ _ hx hy, hseed,
      cardAt_of_card hr hp, hrow, hcolumn, Bool.false_eq_true, if_false]
  · rw [State.sinkReport_lastBg, State.renderFrame_lastBg, s.tileRender_lastBg hk hlast]

/-! ## The colour stack (R213, R218) -/

theorem isSquares_eq (card : Word) : isSquares card = (card.extractLsb' 11 2 == 0b10#2) := by
  have hbits (n : BitVec 2) : (n.getLsbD 1 && !n.getLsbD 0) = (n == 0b10#2) := by revert n; decide
  rw [← hbits, BitVec.getLsbD_extractLsb', BitVec.getLsbD_extractLsb']
  rfl

theorem advances_eq (c : Config) (card : Word) :
    advances c card = (card.getLsbD 13 && (c.csqAdvances || card.extractLsb' 11 2 != 0b10#2)) := by
  rw [advances, isSquares_eq]
  rfl

/-- The walk counts, modulo 4, the cards that advance the stack. -/
theorem getD_stackWalk (c : Config) (j : BitVec 2) (l : List Word) {k : Nat} (hk : k < l.length) :
    (stackWalk c j l).getD k 0 = j + BitVec.ofNat 2 ((l.take (k + 1)).countP (advances c)) := by
  induction l generalizing j k with
  | nil => exact absurd hk k.not_lt_zero
  | cons card rest ih =>
    cases k with
    | zero => cases h : advances c card <;> simp [stackWalk, h]
    | succ k =>
      rw [stackWalk, List.getD_cons_succ, ih _ (Nat.lt_of_succ_lt_succ hk), List.take_succ_cons, List.countP_cons]
      cases advances c card <;> simp [BitVec.ofNat_add, BitVec.add_assoc, BitVec.add_comm]

/-- How many cards up to card `k` advance the stack. -/
def State.stackSteps (s : State) (k : Nat) : Nat := (List.range (k + 1)).countP fun j => advances s.cfg (s.card j)

/-- `stackSteps` in the bits of the cards. -/
theorem State.stackSteps_eq (k : Nat) :
    s.stackSteps k = (List.range (k + 1)).countP fun j =>
      (s.card j).getLsbD 13 && (s.cfg.csqAdvances || (s.card j).extractLsb' 11 2 != 0b10#2) := by
  simp only [State.stackSteps, advances_eq]

theorem State.stackIndexAt_eq {k : Nat} (hk : k < 240) : s.stackIndexAt k = BitVec.ofNat 2 (s.stackSteps k) := by
  have htake : s.cards.take (k + 1) = (List.range (k + 1)).map s.card := by
    rw [State.cards, ← List.map_take, List.take_range, Nat.min_eq_left (by omega)]
  rw [State.stackIndexAt, State.stackIndices, getD_stackWalk _ _ _ (by simpa [State.cards] using hk), htake,
    List.countP_map]
  exact BitVec.zero_add _

theorem State.background_stack {k : Nat} (hmode : s.mode = .cs) (hk : k < 240) :
    s.background k = (s.reg (s.cfg.cs + BitVec.ofNat 6 (s.stackSteps k % 4))).extractLsb' s.cfg.csLo 4 := by
  have hindex : (BitVec.ofNat 2 (s.stackSteps k)).setWidth 6 = BitVec.ofNat 6 (s.stackSteps k % 4) :=
    BitVec.eq_of_toNat_eq (by simp)
  simp only [State.background, hmode, State.stackColour, s.stackIndexAt_eq hk, hindex, field]

theorem State.background_foreBack {s : State} {k : Nat} (hmode : s.mode = .fgbg) :
    s.background k = backColour (s.card k) := by
  rw [State.background, hmode]

/-! ## How a card is drawn (R212, R215) -/

section Draw

variable {r p : Nat}

theorem State.drawShape_fg (idx : ShapeIndex) (f g : Colour) (hr : r < 8) :
    (entry (s.drawShape idx f g) r).fg = s.shapeValue (idx + BitVec.ofNat 12 r) := by
  rw [State.drawShape, entry_tab, if_pos hr]

theorem State.drawShape_pixel (idx : ShapeIndex) (f g : Colour) (hr : r < 8) (hp : p < 8) :
    pixel (entry (s.drawShape idx f g) r).px p =
      if (s.shapeValue (idx + BitVec.ofNat 12 r)).getLsbD (7 - p) then f else g := by
  rw [State.drawShape, entry_tab, if_pos hr, pixel_colourWord _ f g hp]

theorem drawSquares_fg (c : Config) (card : Word) (bg : Colour) (hr : r < 8) (hp : p < 8) :
    (entry (drawSquares c card bg) r).fg.getLsbD (7 - p) = decide (squareField c card (quadrant r p) ≠ 7) := by
  have hcolumn : 7 - (7 - p) = p := by omega
  have hlt : 7 - p < 8 := by omega
  rw [drawSquares, entry_tab, if_pos hr, getLsbD_ofBits, hcolumn, decide_eq_true hlt, Bool.true_and]
  exact decide_not.symm

theorem drawSquares_pixel (c : Config) (card : Word) (bg : Colour) (hr : r < 8) (hp : p < 8) :
    pixel (entry (drawSquares c card bg) r).px p =
      if squareField c card (quadrant r p) = 7 then bg else (squareField c card (quadrant r p)).setWidth 4 := by
  rw [drawSquares, entry_tab, if_pos hr, pixel_packPixels _ hp]

end Draw

section Card

variable {s} {k : Nat}

theorem State.drawCard_stack (hmode : s.mode = .cs) (hcard : (s.card k).extractLsb' 11 2 ≠ 0b10#2) :
    s.drawCard k = s.drawShape (stackCardIndex (s.card k)) (foreColour (s.card k)) (s.background k) := by
  rw [State.drawCard, hmode]
  exact if_neg (by rwa [isSquares_eq, beq_iff_eq])

theorem State.drawCard_squares (hmode : s.mode = .cs) (hcard : (s.card k).extractLsb' 11 2 = 0b10#2) :
    s.drawCard k = drawSquares s.cfg (s.card k) (s.background k) := by
  rw [State.drawCard, hmode]
  exact if_pos (by rwa [isSquares_eq, beq_iff_eq])

theorem State.drawCard_foreBack (hmode : s.mode = .fgbg) :
    s.drawCard k = s.drawShape ((s.card k &&& 0x09F8).setWidth 12) ((s.card k &&& 7).setWidth 4) (s.background k) := by
  rw [State.drawCard, hmode]

end Card

theorem stackCardIndex_eq (card : Word) :
    stackCardIndex card =
      (if card.getLsbD 11 then card &&& 0x0FF8 &&& ~~~0x0600 else card &&& 0x0FF8).setWidth 12 :=
  (apply_ite (BitVec.setWidth 12) _ _ _).symm

/-! ## The pixels of a card -/

/-- Settles O49: the shape of the card, in its own colour on the stack entry the walk has reached. -/
theorem stackCardPixels : Obligations.StackCardPixels := by
  intro s u drop k r p hlive hmode hexec hk hr hp cards card hcard steps bg fg idx b h v x y
  obtain ⟨htc, htf, hlast⟩ := exec_evRender_card hlive hexec hk hr hp
  have hindex : stackCardIndex card = idx := stackCardIndex_eq card
  have hback : s.background k = bg := by rw [s.background_stack hmode hk, s.stackSteps_eq]; rfl
  have hdraw : s.drawCard k = s.drawShape idx fg bg := by rw [State.drawCard_stack hmode hcard, hback, ← hindex]; rfl
  rw [hdraw, s.drawShape_pixel idx fg bg hr hp] at htc
  rw [hdraw, s.drawShape_fg idx fg bg hr] at htf
  exact ⟨htc, htf, fun hend => (hlast hend).trans hback⟩

/-- Settles O50: the field of the pixel's quadrant, 7 standing for the background. -/
theorem squaresCardPixels : Obligations.SquaresCardPixels := by
  intro s u drop k r p hlive hmode hexec hk hr hp cards card hcard at3 c steps bg h v x y
  obtain ⟨htc, htf, hlast⟩ := exec_evRender_card hlive hexec hk hr hp
  have hback : s.background k = bg := by rw [s.background_stack hmode hk, s.stackSteps_eq]; rfl
  have hdraw : s.drawCard k = drawSquares s.cfg card bg := by rw [State.drawCard_squares hmode hcard, hback]; rfl
  rw [hdraw, drawSquares_pixel _ _ _ hr hp] at htc
  rw [hdraw, drawSquares_fg _ _ _ hr hp] at htf
  exact ⟨htc, htf, fun hend => (hlast hend).trans hback⟩

/-- Settles O51: the shape of the card in the two colours of its word. -/
theorem foreBackCardPixels : Obligations.ForeBackCardPixels := by
  intro s u drop k r p hlive hmode hexec hk hr hp card b bg h v x y
  obtain ⟨htc, htf, hlast⟩ := exec_evRender_card hlive hexec hk hr hp
  have hback : s.background k = bg := State.background_foreBack hmode
  have hdraw := State.drawCard_foreBack (k := k) hmode
  rw [hdraw, hback, s.drawShape_pixel _ _ _ hr hp] at htc
  rw [hdraw, hback, s.drawShape_fg _ _ _ hr] at htf
  exact ⟨htc, htf, fun hend => (hlast hend).trans hback⟩

end Sys2Proof.Machine
end

section
/-! PROOF. The sprite renderer and compositor (45_sprite_renderer): first a sprite's own numbers (R250 to R252, R257), then what its
bitmap covers (R258), then what the sprite stage leaves after a whole render (R253 to R255), then the shared planes as one fold over
the sprites (R256 to R259). -/

namespace Sys2Proof.Machine

/-! ## A sprite decoded, its sizes and its limits (R250 to R252, R257, R258) -/

theorem spriteIndex_eq (attr : Word) (m : Mode) :
    spriteIndex attr m =
      (if attr.getLsbD 11 = true ∨ m = .fgbg then attr &&& 0x0FF8 &&& ~~~0x0600 else attr &&& 0x0FF8).setWidth 12 := by
  rw [spriteIndex, ← apply_ite (BitVec.setWidth 12)]
  simp only [bit, Bool.or_eq_true, decide_eq_true_eq]

section Size

variable (p : Sprite)

theorem Sprite.width_eq : p.width = if p.xsize then 16 else 8 := by
  rw [Sprite.width]
  cases p.xsize <;> rfl

theorem Sprite.rows_eq : p.rows = if p.yres then 16 else 8 := by
  rw [Sprite.rows]
  cases p.yres <;> rfl

theorem Sprite.step_eq : p.step = 2 ^ p.ysize.toNat := Nat.one_shiftLeft _

theorem Sprite.step_pos : 0 < p.step := p.step_eq ▸ Nat.two_pow_pos _

/-- The table of heights holds the products of R251. -/
theorem Sprite.height_eq : p.height = p.rows * p.step := by
  have htable : ∀ (ysize : BitVec 2) (yres : Bool),
      entry spriteHeightTable (2 * ysize.toNat + yres.toNat) = 8 <<< yres.toNat * 1 <<< ysize.toNat := by decide
  exact htable p.ysize p.yres

theorem Sprite.bbox_eq :
    p.bbox = ⟨p.xpos.toNat, 2 * p.ypos.toNat, if p.xsize then 16 else 8, p.rows * p.step⟩ := by
  rw [Sprite.bbox, p.width_eq, p.height_eq]

theorem Sprite.skip_iff :
    p.skip = true ↔ p.xpos.toNat = 0 ∨ 168 ≤ p.xpos.toNat ∨ 104 ≤ p.ypos.toNat ∨ (p.vis = false ∧ p.intr = false) := by
  simp [Sprite.skip, or_assoc]

/-- A visible sprite is skipped for its position alone. -/
theorem Sprite.composited_iff :
    p.composited = true ↔ 0 < p.xpos.toNat ∧ p.xpos.toNat < 168 ∧ p.ypos.toNat < 104 ∧ p.vis = true := by
  rw [Sprite.composited, Bool.and_eq_true, Bool.not_eq_true', ← Bool.not_eq_true, p.skip_iff]
  cases p.vis
  · simp
  · simp only [Bool.true_eq_false, false_and, or_false, and_true]
    omega

theorem Sprite.composited_eq :
    p.composited = (p.vis && decide (0 < p.xpos.toNat ∧ p.xpos.toNat < 168 ∧ p.ypos.toNat < 104)) := by
  rw [Bool.eq_iff_iff, p.composited_iff, Bool.and_eq_true, decide_eq_true_eq]
  tauto

end Size

theorem State.sprite_eq (s : State) (i : Nat) :
    s.sprite i =
      let x := s.reg (s.cfg.mobx + BitVec.ofNat 6 i)
      let y := s.reg (s.cfg.moby + BitVec.ofNat 6 i)
      let a := s.reg (s.cfg.moba + BitVec.ofNat 6 i)
      { xpos := x.extractLsb' s.cfg.xposLo 8
        intr := x.getLsbD s.cfg.intrBit
        vis := x.getLsbD s.cfg.visBit
        xsize := x.getLsbD s.cfg.xsizeBit
        ypos := y.extractLsb' s.cfg.yposLo 7
        yres := y.getLsbD s.cfg.yresBit
        ysize := y.extractLsb' s.cfg.ysizeLo 2
        xflip := y.getLsbD s.cfg.xflipBit
        yflip := y.getLsbD s.cfg.yflipBit
        colour := (((a >>> 9) &&& 8) ||| (a &&& 7)).setWidth 4
        prio := a.getLsbD s.cfg.prioBit
        idx := (if a.getLsbD 11 = true ∨ s.mode = .fgbg then a &&& 0x0FF8 &&& ~~~0x0600 else a &&& 0x0FF8).setWidth 12 } := by
  simp only [← spriteIndex_eq]
  rfl

/-- Settles O60: the decode, the sizes and the limits; the delays and the border sizes are the model's own words. -/
theorem spriteDecodeAndSkip : Obligations.SpriteDecodeAndSkip :=
  ⟨State.sprite_eq,
    fun p => ⟨p.width_eq, p.rows_eq, p.step_eq, p.height_eq, p.skip_iff, p.composited_iff⟩,
    fun _ => ⟨rfl, rfl, rfl, rfl⟩⟩

/-! ## The pixels a sprite covers (R258) -/

theorem State.covers_iff (u : State) (p : Sprite) (i x y : Nat) :
    u.covers p i x y = true ↔
      2 * p.ypos.toNat ≤ y ∧ (y - 2 * p.ypos.toNat) / p.step < p.rows ∧ p.xpos.toNat ≤ x ∧ x - p.xpos.toNat < 16 ∧
        (u.spriteRow i ((y - 2 * p.ypos.toNat) / p.step)).getLsbD (15 - (x - p.xpos.toNat)) = true := by
  simp only [State.covers, bit, Bool.and_eq_true, decide_eq_true_eq, and_assoc]

/-- Settles O54: the loop's row and repetition are quotient and remainder of the scanline, counted from the first, by the step. -/
theorem coversIffLoopReaches : Obligations.CoversIffLoopReaches := by
  intro u p i x y
  rw [State.covers_iff]
  constructor
  · rintro ⟨hy, hrow, hx, hcolumn, hbit⟩
    have hscanline := Nat.div_add_mod' (y - 2 * p.ypos.toNat) p.step
    exact ⟨_, (y - 2 * p.ypos.toNat) % p.step, _, hrow, Nat.mod_lt _ p.step_pos, hcolumn, by omega, by omega, hbit⟩
  · rintro ⟨q, t, c, hq, ht, hc, rfl, rfl, hbit⟩
    have hrow : (2 * p.ypos.toNat + q * p.step + t - 2 * p.ypos.toNat) / p.step = q := by
      rw [Nat.add_assoc, Nat.add_sub_cancel_left, Nat.mul_comm, Nat.mul_add_div p.step_pos, Nat.div_eq_of_lt ht, Nat.add_zero]
    rw [hrow, Nat.add_sub_cancel_left]
    exact ⟨by omega, hq, Nat.le_add_right _ _, hc, hbit⟩

/-! ## The sprite stage, and the render after it (R253 to R255; 46_edge_merge_unpack R320) -/

section Stage

variable (s : State)

theorem State.tileRender_alike : s.Alike s.tileRender := by constructor <;> simp

theorem State.sprite_congr {s u : State} (h : s.Alike u) (i : Nat) : u.sprite i = s.sprite i := by
  simp only [State.sprite, State.reg_congr h.regs, h.cfg, h.mode]

theorem State.bitmapRow_congr {s u : State} (h : s.Alike u) (p : Sprite) (q : Nat) : u.bitmapRow p q = s.bitmapRow p q := by
  simp only [State.bitmapRow, State.shapeValue, h.cfg, h.mem]

theorem State.spriteRow_congr {s u : State} (h : u.bitmaps = s.bitmaps) (i q : Nat) : u.spriteRow i q = s.spriteRow i q := by
  rw [State.spriteRow, h, ← State.spriteRow]

theorem State.covers_congr {s u : State} (h : u.bitmaps = s.bitmaps) (p : Sprite) (i x y : Nat) :
    u.covers p i x y = s.covers p i x y := by
  simp only [State.covers, State.spriteRow_congr h]

theorem State.buildSprites_imageColour {i : Nat} (hi : i < 8) : entry s.buildSprites.imageColour i = (s.sprite i).colour := by
  rw [State.buildSprites, entry_map _ _ hi, tab_getElem]

theorem State.buildSprites_bboxes {i : Nat} (hi : i < 8) : entry s.buildSprites.bboxes i = (s.sprite i).bbox := by
  rw [State.buildSprites, entry_map _ _ hi, tab_getElem]

@[simp] theorem State.sinkReport_bitmaps : s.sinkReport.bitmaps = s.bitmaps := rfl

@[simp] theorem State.sinkReport_imageColour : s.sinkReport.imageColour = s.imageColour := rfl

@[simp] theorem State.sinkReport_bboxes : s.sinkReport.bboxes = s.bboxes := rfl

variable (drop : Bool)

/-- No later stage touches what the sprite stage builds. -/
theorem State.renderFrame_sprites :
    (s.renderFrame drop).bitmaps = s.tileRender.buildSprites.bitmaps ∧
    (s.renderFrame drop).imageColour = s.tileRender.buildSprites.imageColour ∧
    (s.renderFrame drop).bboxes = s.tileRender.buildSprites.bboxes := by
  cases drop <;> simp [State.renderFrame, State.renderPlanes, State.showFrame]

end Stage

theorem exec_evRender_bitmaps {s u : State} {drop : Bool} (hlive : s.liveEnable = true)
    (hexec : exec (.evRender drop) s = .next u) : u.bitmaps = s.tileRender.buildSprites.bitmaps := by
  rw [exec_evRender, if_pos hlive, Host.Outcome.next.injEq] at hexec
  rw [← hexec, State.sinkReport_bitmaps, (s.renderFrame_sprites drop).1]

/-- After a render, shown or dropped, bitmap, colour image and bounding box of a sprite are those of its registers before it. -/
theorem exec_evRender_sprite {s u : State} {drop : Bool} {i : Nat} (hlive : s.liveEnable = true)
    (hexec : exec (.evRender drop) s = .next u) (hi : i < 8) :
    (∀ q < 16, u.spriteRow i q = s.bitmapRow (s.sprite i) q) ∧
    entry u.imageColour i = (s.sprite i).colour ∧ entry u.bboxes i = (s.sprite i).bbox := by
  have hsprite := State.sprite_congr s.tileRender_alike i
  have hbitmaps := exec_evRender_bitmaps hlive hexec
  obtain ⟨-, himageColour, hbboxes⟩ := s.renderFrame_sprites drop
  rw [exec_evRender, if_pos hlive, Host.Outcome.next.injEq] at hexec
  refine ⟨fun q hq => ?_, ?_, ?_⟩
  · rw [State.spriteRow_congr hbitmaps, State.buildSprites_spriteRow _ i q hi hq, hsprite,
      State.bitmapRow_congr s.tileRender_alike]
  · rw [← hexec, State.sinkReport_imageColour, himageColour, State.buildSprites_imageColour _ hi, hsprite]
  · rw [← hexec, State.sinkReport_bboxes, hbboxes, State.buildSprites_bboxes _ hi, hsprite]

/-- Settles O53: the colour image is read through the bitmap, so only its one colour is left to say. -/
theorem spriteBitmapsAndBoxes : Obligations.SpriteBitmapsAndBoxes := by
  intro s u drop i hlive hexec hi p base
  obtain ⟨hrows, hcolour, hbox⟩ := exec_evRender_sprite hlive hexec hi
  refine ⟨hrows, fun q _ c _ => ?_, hcolour, hbox.trans p.bbox_eq⟩
  rw [State.imagePixel, hcolour]
  rfl

/-! ## The shared planes (R256 to R259) -/

section Compositing

/-- Does sprite `i` take part in the compositing and cover plane pixel (X, s) (R258). -/
def State.paints (s : State) (x y i : Nat) : Bool := (s.sprite i).composited && s.covers (s.sprite i) i x y

/-- A plane pixel after the sprites of a list, the last first: sprite 0 of `List.range 8` is composited last (R259). -/
def State.painted (s : State) (x y : Nat) (l : List Nat) (old : PlanePixel) : PlanePixel :=
  l.foldr (fun i => s.compositeOne (s.sprite i) i x y) old

variable (s : State) (x y : Nat) (old : PlanePixel)

/-- The order 7, 6, …, 0 composites the sprites from the last of `List.range 8` to the first. -/
theorem State.compositePixel_eq_painted :
    s.compositePixel (tab 8 s.sprite) x y =
      s.painted x y (List.range 8) ⟨s.sv.get x y, s.sp.get x y, s.sc.get x y⟩ := by
  have horder : compositeOrder = (List.range 8).reverse := rfl
  rw [State.compositePixel, horder, List.foldl_reverse, State.painted]
  refine List.foldr_ext _ _ _ fun i hi _ => ?_
  rw [dif_pos (List.mem_range.mp hi), tab_getElem]

theorem State.painted_cons (i : Nat) (l : List Nat) :
    s.painted x y (i :: l) old =
      if s.paints x y i then
        { vis := true
          prio := match s.cfg.prioMerge with
            | .or => (s.painted x y l old).prio || (s.sprite i).prio
            | .winner => (s.sprite i).prio
          colour := (s.sprite i).colour }
      else s.painted x y l old := rfl

theorem State.painted_vis (l : List Nat) : (s.painted x y l old).vis = (l.any (s.paints x y) || old.vis) := by
  induction l with
  | nil => rfl
  | cons i l ih =>
    rw [State.painted_cons, List.any_cons]
    cases s.paints x y i
    · simpa using ih
    · simp

/-- The first sprite of the list that paints the pixel is composited last and leaves its colour (R259). -/
theorem State.painted_colour (l : List Nat) :
    (s.painted x y l old).colour = (l.find? (s.paints x y)).elim old.colour fun i => (s.sprite i).colour := by
  induction l with
  | nil => rfl
  | cons i l ih =>
    rw [State.painted_cons, List.find?_cons]
    cases s.paints x y i
    · simpa using ih
    · rfl

theorem State.painted_prio_or (hmerge : s.cfg.prioMerge = .or) (l : List Nat) :
    (s.painted x y l old).prio = ((l.any fun i => s.paints x y i && (s.sprite i).prio) || old.prio) := by
  induction l with
  | nil => rfl
  | cons i l ih =>
    rw [State.painted_cons, List.any_cons, hmerge]
    cases s.paints x y i
    · simpa using ih
    · simp [ih, Bool.or_comm, Bool.or_left_comm]

theorem State.painted_prio_winner (hmerge : s.cfg.prioMerge = .winner) (l : List Nat) :
    (s.painted x y l old).prio = (l.find? (s.paints x y)).elim old.prio fun i => (s.sprite i).prio := by
  induction l with
  | nil => rfl
  | cons i l ih =>
    rw [State.painted_cons, List.find?_cons, hmerge]
    cases s.paints x y i
    · simpa using ih
    · rfl

end Compositing

section Shown

variable (s : State)

@[simp] theorem State.sinkReport_sv : s.sinkReport.sv = s.sv := rfl

@[simp] theorem State.sinkReport_sp : s.sinkReport.sp = s.sp := rfl

@[simp] theorem State.sinkReport_sc : s.sinkReport.sc = s.sc := rfl

/-- The state a shown frame is composited in: bitmaps built, planes cleared (R253 to R256). -/
def State.readyToComposite (s : State) : State := s.tileRender.buildSprites.clearPlanes

theorem State.readyToComposite_bitmaps : s.readyToComposite.bitmaps = s.tileRender.buildSprites.bitmaps := by
  rw [State.readyToComposite, State.clearPlanes_bitmaps]

theorem State.readyToComposite_alike : s.Alike s.readyToComposite := by constructor <;> simp [State.readyToComposite]

/-- The planes are clear when the compositing starts; `SC` keeps its pixels (R256). -/
theorem State.composite_readyToComposite_get {x y : Nat} (hx : x < 168) (hy : y < 208) :
    (⟨s.readyToComposite.composite.sv.get x y, s.readyToComposite.composite.sp.get x y,
        s.readyToComposite.composite.sc.get x y⟩ : PlanePixel) =
      s.readyToComposite.painted x y (List.range 8) ⟨false, false, s.sc.get x y⟩ := by
  rw [State.composite_get _ x y hx hy, State.compositePixel_eq_painted]
  simp [State.readyToComposite]

theorem State.renderFrame_shown_planes :
    (s.renderFrame false).sv = s.readyToComposite.composite.edgeFixup.sv ∧
    (s.renderFrame false).sp = s.readyToComposite.composite.sp ∧
    (s.renderFrame false).sc = s.readyToComposite.composite.sc := by
  simp [State.renderFrame, State.renderPlanes, State.showFrame, State.readyToComposite]

end Shown

/-- After a shown frame the shared planes show the composited pixel, `SV` up to the edge fixup (46_edge_merge_unpack R292,
decision D26). -/
theorem exec_evRender_planes {s u : State} {x y : Nat} (hlive : s.liveEnable = true)
    (hexec : exec (.evRender false) s = .next u) (hx : x < 168) (hy : y < 208) :
    ∃ px : PlanePixel, px = s.readyToComposite.painted x y (List.range 8) ⟨false, false, s.sc.get x y⟩ ∧
      u.sv.get x y = (px.vis && !decide (167 < x + s.hDelay ∨ 207 < y + 2 * s.vDelay)) ∧
      u.sp.get x y = px.prio ∧ u.sc.get x y = px.colour := by
  rw [exec_evRender, if_pos hlive, Host.Outcome.next.injEq] at hexec
  obtain ⟨hsv, hsp, hsc⟩ := s.renderFrame_shown_planes
  have hregs : s.readyToComposite.composite.regs = s.regs := s.readyToComposite_alike.regs
  have hcfg : s.readyToComposite.composite.cfg = s.cfg := s.readyToComposite_alike.cfg
  refine ⟨_, s.composite_readyToComposite_get hx hy, ?_, ?_, ?_⟩
  · rw [← hexec, State.sinkReport_sv, hsv, State.edgeFixup_sv_get _ x y hx hy, State.hDelay_congr hcfg hregs,
      State.vDelay_congr hcfg hregs, Bool.and_comm]
  · rw [← hexec, State.sinkReport_sp, hsp]
  · rw [← hexec, State.sinkReport_sc, hsc]

/-- Settles O55: the compositing order makes the lowest covering sprite the first one found. -/
theorem compositedPlanes : Obligations.CompositedPlanes := by
  intro s u x y hlive hexec hx hy covering h v
  obtain ⟨px, hpx, hsv, hsp, hsc⟩ := exec_evRender_planes hlive hexec hx hy
  have hh : s.hDelay = h := rfl
  have hv : s.vDelay = v := rfl
  have halike := s.readyToComposite_alike
  have hsprite : s.readyToComposite.sprite = s.sprite := funext (State.sprite_congr halike)
  have hbitmaps := (exec_evRender_bitmaps hlive hexec).trans s.readyToComposite_bitmaps.symm
  have hpaints : s.readyToComposite.paints x y = covering := by
    funext i
    rw [State.paints, hsprite, Sprite.composited_eq, ← State.covers_congr hbitmaps]
  have hvis : px.vis = (List.range 8).any covering := by
    rw [hpx, State.painted_vis, hpaints, Bool.or_false]
  have hcolour : px.colour = ((List.range 8).find? covering).elim (s.sc.get x y) fun i => (s.sprite i).colour := by
    rw [hpx, State.painted_colour, hpaints, hsprite]
  have hprio : px.prio = match s.cfg.prioMerge with
      | .or => (List.range 8).any fun j => covering j && (s.sprite j).prio
      | .winner => ((List.range 8).find? covering).elim false fun i => (s.sprite i).prio := by
    cases hmerge : s.cfg.prioMerge with
    | or => rw [hpx, State.painted_prio_or _ _ _ _ (halike.cfg ▸ hmerge), hpaints, hsprite, Bool.or_false]
    | winner => rw [hpx, State.painted_prio_winner _ _ _ _ (halike.cfg ▸ hmerge), hpaints, hsprite]
  refine ⟨?_, ?_⟩
  · rw [hsv, hvis, hh, hv]
  · rw [hsc, hsp, hcolour, hprio]
    cases hfind : (List.range 8).find? covering with
    | none =>
      have hnone : ∀ j ∈ List.range 8, covering j = false := by simpa using hfind
      refine ⟨rfl, ?_⟩
      cases s.cfg.prioMerge with
      | or => exact List.any_eq_false.mpr fun j hj => by simp [hnone j hj]
      | winner => rfl
    | some i => exact ⟨rfl, by cases s.cfg.prioMerge <;> rfl⟩

end Sys2Proof.Machine
end

section
/-! PROOF. The last stages of a render (46_edge_merge_unpack): first what a render hands over and leaves alone (R320, R321), then
what the edge fixup and the seeding clear (R291, R292, R301), then the display field and the surface of a shown frame, read off the
planes it leaves (R300 to R305). -/

namespace Sys2Proof.Machine

variable (s : State)

/-! ## The report to the sink (R321) -/

theorem State.sinkReport_frame :
    s.sinkReport = { s with
      regDirty := false
      shapeDirty := false
      tileDirty := false
      out := s.out ++ [.frameDirty (s.regDirty || s.shapeDirty || s.tileDirty), .videoEnabled s.pendingEnable] } := by
  simp [State.sinkReport, State.emit, State.clearDirty, State.frameDirty]

@[simp] theorem State.sinkReport_df : s.sinkReport.df = s.df := rfl

@[simp] theorem State.sinkReport_surface : s.sinkReport.surface = s.surface := rfl

@[simp] theorem State.sinkReport_draws : s.sinkReport.draws = s.draws := rfl

theorem State.sinkReport_out :
    s.sinkReport.out =
      s.out ++ [Output.frameDirty (s.regDirty || s.shapeDirty || s.tileDirty), Output.videoEnabled s.pendingEnable] := by
  rw [State.sinkReport_frame]

/-- Settles O46: with video off the report is all there is. -/
theorem renderDisabledReportsOnly : Obligations.RenderDisabledReportsOnly := by
  intro s drop hoff
  rw [exec_evRender, if_neg (by simp [hoff]), State.sinkReport_frame]

/-- With video on a render is the frame's pipeline and the report. -/
theorem exec_evRender_live {s u : State} {drop : Bool} (hlive : s.liveEnable = true)
    (hexec : exec (.evRender drop) s = .next u) : u = (s.renderFrame drop).sinkReport := by
  rw [exec_evRender, if_pos hlive, Host.Outcome.next.injEq] at hexec
  exact hexec.symm

theorem exec_evRender_alike {s u : State} {drop : Bool} (hlive : s.liveEnable = true)
    (hexec : exec (.evRender drop) s = .next u) : s.Alike u :=
  exec_evRender_live hlive hexec ▸ (s.renderFrame_alike drop).trans (State.sinkReport_alike _)

/-! ## What a render leaves alone, and what it hands over (R320; 45_sprite_renderer R260) -/

section HandedOver

/-- `s` with the render state, the dirty flags and the outputs of `t`: all that a render may change. -/
def State.withRender (s t : State) : State :=
  { s with
    tc := t.tc
    tf := t.tf
    lastBg := t.lastBg
    csIndex := t.csIndex
    bitmaps := t.bitmaps
    imageColour := t.imageColour
    bboxes := t.bboxes
    sv := t.sv
    sp := t.sp
    sc := t.sc
    df := t.df
    surface := t.surface
    draws := t.draws
    regDirty := t.regDirty
    shapeDirty := t.shapeDirty
    tileDirty := t.tileDirty
    out := t.out }

/-- From `s` to `t` only what a render may change has changed. -/
def State.RenderedTo (s t : State) : Prop := t = s.withRender t

theorem State.RenderedTo.trans {s t u : State} (h : s.RenderedTo t) (k : t.RenderedTo u) : s.RenderedTo u :=
  calc
    u = t.withRender u := k
    _ = (s.withRender t).withRender u := congrArg (·.withRender u) h
    _ = s.withRender u := rfl

/-! One rule per stage. -/

theorem State.emit_renderedTo (o : Output) : s.RenderedTo (s.emit o) := rfl

theorem State.tileRender_renderedTo : s.RenderedTo s.tileRender := rfl

theorem State.buildSprites_renderedTo : s.RenderedTo s.buildSprites := rfl

theorem State.clearPlanes_renderedTo : s.RenderedTo s.clearPlanes := rfl

theorem State.composite_renderedTo : s.RenderedTo s.composite := rfl

theorem State.edgeFixup_renderedTo : s.RenderedTo s.edgeFixup := rfl

theorem State.seedCells_renderedTo : s.RenderedTo s.seedCells := rfl

theorem State.mergeFrame_renderedTo : s.RenderedTo s.mergeFrame := rfl

theorem State.unpack_renderedTo : s.RenderedTo s.unpack := rfl

theorem State.sinkReport_renderedTo : s.RenderedTo s.sinkReport := rfl

theorem State.renderPlanes_renderedTo (drop : Bool) : s.RenderedTo (s.renderPlanes drop) := by
  have hready : s.RenderedTo s.readyToComposite :=
    (s.tileRender_renderedTo.trans (State.buildSprites_renderedTo _)).trans (State.clearPlanes_renderedTo _)
  cases drop with
  | true => exact hready.trans (State.edgeFixup_renderedTo _)
  | false => exact (hready.trans (State.composite_renderedTo _)).trans (State.edgeFixup_renderedTo _)

theorem State.showFrame_renderedTo : s.RenderedTo s.showFrame :=
  ((s.seedCells_renderedTo.trans (State.mergeFrame_renderedTo _)).trans (State.unpack_renderedTo _)).trans
    (State.emit_renderedTo _ _)

theorem State.renderFrame_renderedTo (drop : Bool) : s.RenderedTo (s.renderFrame drop) := by
  have hplanes := s.renderPlanes_renderedTo drop
  cases drop with
  | true => exact hplanes.trans (State.emit_renderedTo _ _)
  | false => exact (hplanes.trans (State.showFrame_renderedTo _)).trans (State.emit_renderedTo _ _)

theorem exec_evRender_renderedTo {s u : State} {drop : Bool} (hlive : s.liveEnable = true)
    (hexec : exec (.evRender drop) s = .next u) : s.RenderedTo u :=
  exec_evRender_live hlive hexec ▸ (s.renderFrame_renderedTo drop).trans (State.sinkReport_renderedTo _)

theorem State.collSprite_congr {s u : State} (halike : s.Alike u) (hbitmaps : u.bitmaps = s.bitmaps)
    (hbboxes : u.bboxes = s.bboxes) : u.collSprite = s.collSprite := by
  funext i
  simp only [State.collSprite, State.sprite_congr halike, hbitmaps, hbboxes]

theorem State.emitColl_collSprite : s.emitColl.collSprite = s.collSprite :=
  State.collSprite_congr s.emitColl_alike rfl rfl

theorem State.sinkReport_collSprite : s.sinkReport.collSprite = s.collSprite :=
  State.collSprite_congr s.sinkReport_alike rfl rfl

theorem State.showFrame_out : s.showFrame.out = s.out ++ [Output.frame s.showFrame.surface s.showFrame.bboxes] := by
  simp [State.showFrame]

/-- The frame unless dropped, then the sprites and the foreground as the end of the frame shows them. -/
theorem State.renderFrame_out (drop : Bool) :
    (s.renderFrame drop).out =
      s.out ++ (if drop then [] else [Output.frame (s.renderFrame drop).surface (s.renderFrame drop).bboxes]) ++
        [Output.collRun (tab 8 (s.renderFrame drop).collSprite) (s.renderFrame drop).tf] := by
  have hplanes : (s.renderPlanes drop).out = s.out := by cases drop <;> simp [State.renderPlanes]
  cases drop <;> simp [State.renderFrame, State.showFrame_out, State.emitColl_collSprite, hplanes]

theorem Sprite.skip_eq (p : Sprite) :
    p.skip = decide (p.xpos.toNat = 0 ∨ 168 ≤ p.xpos.toNat ∨ 104 ≤ p.ypos.toNat ∨ (p.vis = false ∧ p.intr = false)) := by
  rw [Bool.eq_iff_iff, p.skip_iff, decide_eq_true_eq]

/-- What the collision detector receives about sprite `i`: the bitmap and the box as rendered, the rest as its registers say. -/
theorem State.collSprite_eq {s u : State} (halike : s.Alike u) (i : Nat) :
    u.collSprite i =
      let x := s.reg (s.cfg.mobx + BitVec.ofNat 6 i)
      let y := s.reg (s.cfg.moby + BitVec.ofNat 6 i)
      let xpos := (x.extractLsb' s.cfg.xposLo 8).toNat
      let ypos := (y.extractLsb' s.cfg.yposLo 7).toNat
      let intr := x.getLsbD s.cfg.intrBit
      { bitmap := entry u.bitmaps i
        bbox := entry u.bboxes i
        skip := decide (xpos = 0 ∨ 168 ≤ xpos ∨ 104 ≤ ypos ∨ (x.getLsbD s.cfg.visBit = false ∧ intr = false))
        intr := intr
        step := 2 ^ (y.extractLsb' s.cfg.ysizeLo 2).toNat
        xpos := xpos
        ypos := ypos } := by
  rw [State.collSprite, State.sprite_congr halike, Sprite.skip_eq, Sprite.step_eq]
  rfl

/-- Only the report clears the dirty flags. -/
theorem State.renderFrame_dirty (drop : Bool) :
    (s.renderFrame drop).regDirty = s.regDirty ∧ (s.renderFrame drop).shapeDirty = s.shapeDirty ∧
      (s.renderFrame drop).tileDirty = s.tileDirty := by
  cases drop <;> simp [State.renderFrame, State.renderPlanes, State.showFrame]

/-- The report is of the flags as they were before the render. -/
theorem exec_evRender_out {s u : State} {drop : Bool} (hlive : s.liveEnable = true)
    (hexec : exec (.evRender drop) s = .next u) :
    u.out = s.out ++ (if drop then [] else [Output.frame u.surface u.bboxes]) ++
      [Output.collRun (tab 8 u.collSprite) u.tf, Output.frameDirty (s.regDirty || s.shapeDirty || s.tileDirty),
        Output.videoEnabled s.pendingEnable] := by
  obtain ⟨hreg, hshape, htile⟩ := s.renderFrame_dirty drop
  rw [exec_evRender_live hlive hexec, State.sinkReport_out, hreg, hshape, htile, (s.renderFrame_alike drop).pendingEnable,
    State.renderFrame_out, State.sinkReport_collSprite, State.sinkReport_tf, State.sinkReport_bboxes,
    State.sinkReport_surface, List.append_assoc]
  rfl

theorem exec_evRender_clean {s u : State} {drop : Bool} (hlive : s.liveEnable = true)
    (hexec : exec (.evRender drop) s = .next u) :
    u.regDirty = false ∧ u.shapeDirty = false ∧ u.tileDirty = false := by
  rw [exec_evRender_live hlive hexec, State.sinkReport_frame]
  exact ⟨rfl, rfl, rfl⟩

/-- Settles O47: the frame, the outputs, and each handed sprite written out. -/
theorem renderEnabledCompletes : Obligations.RenderEnabledCompletes := by
  intro s drop hlive
  obtain ⟨u, hexec⟩ : ∃ u, exec (.evRender drop) s = .next u := ⟨_, exec_evRender s drop⟩
  refine ⟨u, hexec, ?_⟩
  intro handed
  have hhanded : u.collSprite = handed := funext fun i => State.collSprite_eq (exec_evRender_alike hlive hexec) i
  have hrendered : u = s.withRender u := exec_evRender_renderedTo hlive hexec
  obtain ⟨hreg, hshape, htile⟩ := exec_evRender_clean hlive hexec
  have hout := exec_evRender_out hlive hexec
  rw [hhanded] at hout
  exact hrendered.trans (by rw [State.withRender, hreg, hshape, htile, hout])

end HandedOver

/-! ## A dropped frame (R320, decision D30) -/

/-- A dropped frame leaves the pixels, and the cleared planes it starts from (45_sprite_renderer R256). -/
theorem State.renderFrame_dropped :
    (s.renderFrame true).df = s.df ∧ (s.renderFrame true).surface = s.surface ∧ (s.renderFrame true).sc = s.sc ∧
    (s.renderFrame true).draws = s.draws ∧ (s.renderFrame true).sv = s.readyToComposite.edgeFixup.sv ∧
    (s.renderFrame true).sp = Plane.fill 168 208 false := by
  simp [State.renderFrame, State.renderPlanes, State.readyToComposite]

/-- Settles O48: the edge fixup can only clear, and the planes were clear before it. -/
theorem droppedFrameKeepsPicture : Obligations.DroppedFrameKeepsPicture := by
  intro s u hlive hexec
  obtain ⟨hdf, hsurface, hsc, hdraws, hsv, hsp⟩ := s.renderFrame_dropped
  rw [exec_evRender_live hlive hexec, State.sinkReport_df, State.sinkReport_surface, State.sinkReport_sc,
    State.sinkReport_draws, State.sinkReport_sv, State.sinkReport_sp]
  refine ⟨hdf, hsurface, hsc, hdraws, fun x hx y hy => ⟨?_, ?_⟩⟩
  · rw [hsv, State.edgeFixup_sv_get _ x y hx hy, State.readyToComposite, State.clearPlanes_sv,
      Plane.get_fill, if_pos ⟨hx, hy⟩, Bool.and_false]
  · rw [hsp, Plane.get_fill, if_pos ⟨hx, hy⟩]

/-! ## The edge fixup and the seeding (R291, R292, R301) -/

section Cleared

variable (drop : Bool) {x y : Nat}

/-- No stage after the edge fixup writes `SV`. -/
theorem State.renderFrame_sv_of_pushedOff (hx : x < 168) (hy : y < 208)
    (hoff : 167 < x + s.hDelay ∨ 207 < y + 2 * s.vDelay) : (s.renderFrame drop).sv.get x y = false := by
  have hfixup {t : State} (hc : t.cfg = s.cfg) (hr : t.regs = s.regs) : t.edgeFixup.sv.get x y = false := by
    rw [t.edgeFixup_sv_get x y hx hy, State.hDelay_congr hc hr, State.vDelay_congr hc hr, decide_eq_true hoff]
    rfl
  cases drop with
  | true => exact hfixup (t := s.readyToComposite) s.readyToComposite_alike.cfg s.readyToComposite_alike.regs
  | false => exact hfixup (t := s.readyToComposite.composite) s.readyToComposite_alike.cfg s.readyToComposite_alike.regs

/-- The seeding gives every pixel of a seed cell the cell's colour and no foreground. -/
theorem State.seedCells_get_seed (hx : x < 168) (hy : y < 104) (hseed : isSeed x y = true) :
    s.seedCells.tc.get x y = Config.seedColour s.draws (seedCell x y) ∧ s.seedCells.tf.get x y = false := by
  simp [State.seedCells, hx, hy, hseed]

/-- The top left pixel of a seed cell lies in the same cell. -/
theorem seedCell_corner (hseed : isSeed x y = true) :
    isSeed (8 * (x / 8)) (8 * (y / 8)) = true ∧ seedCell (8 * (x / 8)) (8 * (y / 8)) = seedCell x y := by
  have hx : 8 * (x / 8) / 8 = x / 8 := Nat.mul_div_cancel_left _ (by decide)
  have hy : 8 * (y / 8) / 8 = y / 8 := Nat.mul_div_cancel_left _ (by decide)
  have hlt (n : Nat) : 8 * (n / 8) < 8 ↔ n < 8 := by omega
  simp only [isSeed, seedCell, hx, hy, hlt] at hseed ⊢
  exact ⟨hseed, trivial⟩

theorem State.renderFrame_shown_tiles :
    (s.renderFrame false).tc = (s.renderPlanes false).seedCells.tc ∧
    (s.renderFrame false).tf = (s.renderPlanes false).seedCells.tf := by
  simp [State.renderFrame, State.showFrame]

/-- The edge fixup clears `TF` in seed cells too, and the seeding of a shown frame clears it there anyway. -/
theorem State.renderFrame_tf_of_pushedOff (hx : x < 168) (hy : y < 104)
    (hoff : 167 < x + s.hDelay ∨ 103 < y + s.vDelay) : (s.renderFrame drop).tf.get x y = false := by
  have hplanes : (s.renderPlanes drop).tf.get x y = false := by
    rw [State.renderPlanes_tf_get s drop hx hy, decide_eq_true hoff, Bool.not_true, Bool.and_false]
  cases drop with
  | true => exact hplanes
  | false =>
    rw [s.renderFrame_shown_tiles.2]
    cases hseed : isSeed x y with
    | true => exact (State.seedCells_get_seed _ hx hy hseed).2
    | false => rw [(State.seedCells_get _ x y hx hy hseed).2, hplanes]

end Cleared

/-- Settles O52: plane by plane; a seed cell's colour is its corner's. -/
theorem edgeAndSeedPixelsClear : Obligations.EdgeAndSeedPixelsClear := by
  intro s u drop hlive hexec h v
  rw [exec_evRender_live hlive hexec, State.sinkReport_tc, State.sinkReport_tf, State.sinkReport_sv]
  refine ⟨fun x hx y hy => s.renderFrame_tf_of_pushedOff drop hx hy,
    fun x hx y hy => s.renderFrame_sv_of_pushedOff drop hx hy, ?_⟩
  rintro rfl x hx y hy hcell
  have hseed : isSeed x y = true := by simpa [isSeed] using hcell
  obtain ⟨hcorner, hsame⟩ := seedCell_corner hseed
  obtain ⟨htc, htf⟩ := (s.renderPlanes false).seedCells_get_seed hx hy hseed
  obtain ⟨htcCorner, -⟩ := (s.renderPlanes false).seedCells_get_seed (by omega) (by omega) hcorner
  rw [s.renderFrame_shown_tiles.1, s.renderFrame_shown_tiles.2]
  exact ⟨htf, by rw [htc, htcCorner, hsame]⟩

/-! ## The display field of a shown frame (R300 to R304) -/

section DisplayField

variable (x y dx dy : Nat)

theorem State.merged_eq :
    s.merged x y =
      if s.sv.get x y = true ∧ ¬ (s.sp.get x y = true ∧ s.tf.get x (y / 2) = true) then s.sc.get x y
      else s.tc.get x (y / 2) := by
  simp only [State.merged, spriteShown, Bool.and_eq_true, Bool.not_eq_true', ← Bool.not_eq_true]

/-- Both delays at once (R302, R303): the merged pixel `h` columns to the left and `2v` scanlines up, where there is one. -/
theorem State.delayed_eq :
    s.delayed dx dy =
      if s.hDelay ≤ dx ∧ dx - s.hDelay ≤ 167 ∧ 2 * s.vDelay ≤ dy ∧ dy - 2 * s.vDelay ≤ 207 then
        s.merged (dx - s.hDelay) (dy - 2 * s.vDelay)
      else 0 := by
  rw [State.delayed, State.rowDelayed, ← ite_and]
  congr 1
  exact propext ⟨fun ⟨⟨hv, hy⟩, hh, hx⟩ => ⟨hh, hx, hv, hy⟩, fun ⟨hh, hx, hv, hy⟩ => ⟨⟨hv, hy⟩, hh, hx⟩⟩

theorem State.inBorder_iff :
    s.inBorder dx dy = true ↔
      dy < s.bandSize ∨ 224 - s.bandSize ≤ dy ∨ dx < s.columnSize ∨ 176 - s.columnSize ≤ dx := by
  simp only [State.inBorder, Bool.or_eq_true, decide_eq_true_eq, or_assoc]

theorem State.bandSize_congr {s u : State} (h : s.Alike u) : u.bandSize = s.bandSize := by
  rw [State.bandSize, State.reg_congr h.regs, h.cfg, ← State.bandSize]

theorem State.columnSize_congr {s u : State} (h : s.Alike u) : u.columnSize = s.columnSize := by
  rw [State.columnSize, State.reg_congr h.regs, h.cfg, ← State.columnSize]

theorem State.borderColour_congr {s u : State} (h : s.Alike u) : u.borderColour = s.borderColour := by
  rw [State.borderColour, State.reg_congr h.regs, ← State.borderColour]

theorem State.inBorder_congr {s u : State} (h : s.Alike u) : u.inBorder dx dy = s.inBorder dx dy := by
  rw [State.inBorder, State.bandSize_congr h, State.columnSize_congr h, ← State.inBorder]

/-! What the pixels of the display field are computed from is not written after the seeding. -/

@[simp] theorem State.emit_displayPixel (o : Output) : (s.emit o).displayPixel = s.displayPixel := rfl

@[simp] theorem State.mergeFrame_displayPixel : s.mergeFrame.displayPixel = s.displayPixel := rfl

@[simp] theorem State.unpack_displayPixel : s.unpack.displayPixel = s.displayPixel := rfl

@[simp] theorem State.emitColl_displayPixel : s.emitColl.displayPixel = s.displayPixel := rfl

@[simp] theorem State.clearDirty_displayPixel : s.clearDirty.displayPixel = s.displayPixel := rfl

@[simp] theorem State.sinkReport_displayPixel : s.sinkReport.displayPixel = s.displayPixel := by
  simp [State.sinkReport]

theorem State.renderFrame_shown_df :
    (s.renderFrame false).df = Plane.ofFn 176 224 (s.renderFrame false).displayPixel := by
  simp [State.renderFrame, State.showFrame]

end DisplayField

/-- After a shown frame the display field agrees with the planes the frame leaves. -/
theorem exec_evRender_df_get {s u : State} {dx dy : Nat} (hlive : s.liveEnable = true)
    (hexec : exec (.evRender false) s = .next u) (hx : dx < 176) (hy : dy < 224) :
    u.df.get dx dy = if s.inBorder dx dy then s.borderColour else u.delayed dx dy := by
  have halike := exec_evRender_alike hlive hexec
  have hdf : u.df.get dx dy = u.displayPixel dx dy := by
    rw [exec_evRender_live hlive hexec, State.sinkReport_df, State.sinkReport_displayPixel, s.renderFrame_shown_df,
      Plane.get_ofFn, if_pos ⟨hx, hy⟩]
  rw [hdf, State.displayPixel, State.inBorder_congr dx dy halike, State.borderColour_congr halike]

/-- The delayed pixel after a render, with the delays as they were before it. -/
theorem exec_evRender_delayed {s u : State} {drop : Bool} (hlive : s.liveEnable = true)
    (hexec : exec (.evRender drop) s = .next u) (dx dy : Nat) :
    u.delayed dx dy =
      if s.hDelay ≤ dx ∧ dx - s.hDelay ≤ 167 ∧ 2 * s.vDelay ≤ dy ∧ dy - 2 * s.vDelay ≤ 207 then
        u.merged (dx - s.hDelay) (dy - 2 * s.vDelay)
      else 0 := by
  have halike := exec_evRender_alike hlive hexec
  rw [State.delayed_eq, State.hDelay_congr halike.cfg halike.regs, State.vDelay_congr halike.cfg halike.regs]

/-- Settles O56: border, delays and merge, each written out. -/
theorem displayFieldPixels : Obligations.DisplayFieldPixels := by
  intro s u dx dy hlive hexec hx hy h v x y tb lb
  rw [exec_evRender_df_get hlive hexec hx hy, exec_evRender_delayed hlive hexec, State.merged_eq]
  simp only [State.inBorder_iff]
  rfl

theorem State.hDelay_lt : s.hDelay < 8 := BitVec.isLt _

theorem State.vDelay_lt : s.vDelay < 8 := BitVec.isLt _

/-- Inside a border of at least 8 columns and 16 scanlines, more than the delays, the delayed pixel lies in the picture. -/
theorem State.delayed_inside_picture {dx dy : Nat} (hcolumn : 8 ≤ s.columnSize) (hband : 16 ≤ s.bandSize)
    (hinside : s.inBorder dx dy = false) :
    s.hDelay ≤ dx ∧ dx - s.hDelay ≤ 167 ∧ 2 * s.vDelay ≤ dy ∧ dy - 2 * s.vDelay ≤ 207 := by
  have hborder := (s.inBorder_iff dx dy).not.mp (Bool.eq_false_iff.mp hinside)
  have hh := s.hDelay_lt
  have hv := s.vDelay_lt
  omega

/-- Settles O57: the fill of the delays is narrower than the border. -/
theorem zeroFillNeverShows : Obligations.ZeroFillNeverShows := by
  intro s u dx dy hlive hexec hx hy hcolumn hband hinside
  have hmerged := s.delayed_inside_picture hcolumn hband hinside
  have ⟨hh, hright, hv, hbottom⟩ := hmerged
  refine ⟨hh, Nat.lt_succ_of_le hright, hv, Nat.lt_succ_of_le hbottom, ?_⟩
  rw [exec_evRender_df_get hlive hexec hx hy, hinside, if_neg Bool.false_ne_true, exec_evRender_delayed hlive hexec,
    if_pos hmerged]

/-! ## The surface of a shown frame (R305) -/

/-- Unpacking shows the display-field pixel that the map names. -/
theorem State.unpack_surface_get {x y : Nat} (hx : x < 160) (hy : y < 200) :
    s.unpack.surface.get x y =
      (s.df.get (s.cfg.surfaceMap.get x y).1 (s.cfg.surfaceMap.get x y).2).setWidth 8 := by
  rw [State.unpack, Plane.get_ofFn, if_pos ⟨hx, hy⟩, unpackedPixel_eq]

/-- Settles O58: nothing after the unpacking writes the surface or the display field. -/
theorem surfacePixels : Obligations.SurfacePixels := by
  intro s u x y hlive hexec hx hy
  rw [← (exec_evRender_alike hlive hexec).cfg, exec_evRender_live hlive hexec]
  exact State.unpack_surface_get _ hx hy

end Sys2Proof.Machine
end

section
/-! PROOF. Faults and reset (60_exceptions, 70_reset_and_hazards): first who moves the control state, the gate and the capture
cursor (R346, R372), said once; then which operations fault and why no run in the sequencer's order does (R340, R341); then what
a reset leaves (R371 to R374). -/

namespace Sys2Proof.Machine

variable (s : State)

/-! ## Who moves the control state (60_exceptions R346) -/

/-- The control state: the fields that `ResetControl` sets (70_reset_and_hazards R372). -/
structure Control where
  regDeadline : Deadline
  memDeadline : Deadline
  isoEnd : Deadline
  cursor : Nat
  firstAfterStart : Bool

def State.control (s : State) : Control := ⟨s.regDeadline, s.memDeadline, s.isoEnd, s.cursor, s.firstAfterStart⟩

theorem State.resetControl_control : s.resetControl.control = ⟨.closed, .closed, .inf, 0, true⟩ := rfl

theorem State.emit_control (o : Output) : (s.emit o).control = s.control := rfl

theorem State.store_control (a : RegAddr) (v : Word) : (s.store a v).control = s.control := by simp [State.control]

theorem State.modeSet_control (m : Mode) : (s.modeSet m).control = s.control := by simp [State.control]

theorem State.shapeWrite_control (a v : Word) : (s.shapeWrite a v).control = s.control := by simp [State.control]

theorem State.requestBus_control (k : BusRequest) : (s.requestBus k).control = s.control := by simp [State.control]

theorem State.writeSelected_control (a : RegAddr) (v : Word) : (s.writeSelected a v).control = s.control := by
  rw [State.writeSelected_frame]; rfl

theorem State.writeHigh_control (a v : Word) : (s.writeHigh a v).control = s.control := by
  obtain h | ⟨-, h⟩ := s.writeHigh_cases a v
  · rw [h]
  · rw [h, State.writeSelected_control]

theorem State.RenderedTo.control {s t : State} (h : s.RenderedTo t) : t.control = s.control :=
  calc
    t.control = (s.withRender t).control := congrArg State.control h
    _ = s.control := rfl

/-- A guarded update keeps the control state when the update does. -/
theorem control_ite {c : Prop} [Decidable c] {s u : State} (hu : u.control = s.control) :
    (if c then u else s).control = s.control := by
  split
  · exact hu
  · rfl

/-- What completing operation `i` does to the control state. -/
inductive ControlEffect (s : State) : Instr → State → Prop
  | kept {i t} (h : t.control = s.control) : ControlEffect s i t
  | regDeadline {vk tv t} (h : t.control = { s.control with regDeadline := deadlineOf vk tv }) :
      ControlEffect s (.evDeadline .reg vk tv) t
  | memDeadline {vk tv t} (h : t.control = { s.control with memDeadline := deadlineOf vk tv }) :
      ControlEffect s (.evDeadline .mem vk tv) t
  | isoEnd {vk tv t} (h : t.control = { s.control with isoEnd := deadlineOf vk tv }) : ControlEffect s (.evIso vk tv) t
  | started {t} (h : t.control = { s.control with cursor := 0, firstAfterStart := true }) : ControlEffect s .evCapstart t
  | captured {p ack t} (h : t.control = { s.control with cursor := s.captureCursor ack, firstAfterStart := false }) :
      ControlEffect s (.evCaprow p ack) t
  | reset {t} (h : t.control = ⟨.closed, .closed, .inf, 0, true⟩) : ControlEffect s .evReset t

/-- A capture that completes has copied its row and asked for the bus (42_tile_capture R172). -/
theorem exec_evCaprow_next {p : BitVec 4} {ack : Bool} {s t : State} (h : exec (.evCaprow p ack) s = .next t) :
    t = (s.captureRow (p.toNat - 3) ack).requestBus (if p = 14 then .shortened else .full) := by
  by_cases hp : p.toNat < 3 ∨ 14 < p.toNat
  · cases (exec_evCaprow_badPhase s hp ack).symm.trans h
  · rw [exec_evCaprow_of_phase s (by omega) (by omega)] at h
    split at h
    · cases h
    · cases h; rfl

/-- Every operation that completes has one of these effects. -/
theorem exec_control {i : Instr} {s t : State} (h : exec i s = .next t) : ControlEffect s i t := by
  cases i with
  | evDeadline target =>
    cases target with
    | reg => cases h; exact .regDeadline rfl
    | mem => cases h; exact .memDeadline rfl
  | evIso => cases h; exact .isoEnd rfl
  | evCapstart => cases h; exact .started (State.requestBus_control _ _)
  | evCaprow => exact .captured (exec_evCaprow_next h ▸ State.requestBus_control _ _)
  | evReset =>
    rw [exec_evReset, Host.Outcome.next.injEq] at h
    exact .reset (h ▸ State.resetControl_control _)
  | rdRMode n =>
    cases hg : s.honoured .reg n with
    | true => cases (exec_rdRMode_of_honoured hg).symm.trans h; exact .kept (s.modeSet_control .cs)
    | false => cases (exec_rdRMode_of_dropped hg).symm.trans h; exact .kept rfl
  | rdRReg | rdRShape | rdRAlias | peekR | rdS | peekS | peekT => cases h; exact .kept (s.emit_control _)
  | wrRDe v => cases h; exact .kept (control_ite (s.writeSelected_de v ▸ s.writeSelected_control _ v))
  | wrRMode v => cases h; exact .kept (control_ite (s.writeSelected_modeRegister v ▸ s.writeSelected_control _ v))
  | wrRBorder v => cases h; exact .kept (control_ite (s.writeSelected_border v ▸ s.writeSelected_control _ v))
  | wrRReg a v => cases h; exact .kept (control_ite (s.store_control a v))
  | wrRHigh a v => cases h; exact .kept (control_ite (s.writeHigh_control a v))
  | wrS a v => cases h; exact .kept (control_ite (s.shapeWrite_control a v))
  | pokeR a v => cases h; exact .kept (s.writeSelected_control a v)
  | pokeRHigh a v => cases h; exact .kept (s.writeHigh_control a v)
  | pokeS a v => cases h; exact .kept (s.shapeWrite_control a v)
  | wrT k v n =>
    obtain hk | hk := Nat.lt_or_ge k.toNat 240
    · cases (exec_wrT s hk v n).symm.trans h; exact .kept rfl
    · cases (exec_wrT_of_le s hk v n).symm.trans h; exact .kept rfl
  | evRender drop =>
    cases h
    exact .kept ((State.sinkReport_renderedTo _).control.trans (control_ite (s.renderFrame_renderedTo drop).control))
  | evLatch => cases h; exact .kept rfl
  | evColl => cases h; exact .kept (s.store_control _ _)

/-- An operation other than a reset and the two gate events leaves the gate. -/
theorem ControlEffect.gate {s t : State} {i : Instr} (h : ControlEffect s i t) :
    (i = .evReset ∨ (∃ g vk tv, i = .evDeadline g vk tv) ∨ ∃ vk tv, i = .evIso vk tv) ∨
      (t.regDeadline = s.regDeadline ∧ t.memDeadline = s.memDeadline ∧ t.isoEnd = s.isoEnd) := by
  cases h with
  | reset => exact .inl (.inl rfl)
  | regDeadline | memDeadline => exact .inl (.inr (.inl ⟨_, _, _, rfl⟩))
  | isoEnd => exact .inl (.inr (.inr ⟨_, _, rfl⟩))
  | kept h | started h | captured h =>
    exact .inr ⟨congrArg Control.regDeadline h, congrArg Control.memDeadline h, congrArg Control.isoEnd h⟩

/-- Settles O16: of the effects on the control state only those of the gate events and of reset reach the gate. -/
theorem gateChangesOnlyByEvents : Obligations.GateChangesOnlyByEvents := by
  intro i s t h hchange
  obtain hevent | ⟨hreg, hmem, hiso⟩ := (exec_control h).gate
  · exact hevent
  · simp [hreg, hmem, hiso] at hchange

/-! ## Which operations fault (60_exceptions R340, R341) -/

/-- A capture completes or raises one of the two faults. -/
theorem exec_evCaprow_outcome (p : BitVec 4) (ack : Bool) :
    (∃ t, exec (.evCaprow p ack) s = .next t) ∨ exec (.evCaprow p ack) s = .fault (.badPhase p) ∨
      exec (.evCaprow p ack) s = .fault .cursorOverrun := by
  by_cases hp : p.toNat < 3 ∨ 14 < p.toNat
  · exact .inr (.inl (exec_evCaprow_badPhase s hp ack))
  · rw [exec_evCaprow_of_phase s (by omega) (by omega)]
    split
    · exact .inr (.inr rfl)
    · exact .inl ⟨_, rfl⟩

theorem exec_of_not_caprow {i : Instr} (hi : ∀ p ack, i ≠ .evCaprow p ack) : ∃ t, exec i s = .next t := by
  cases i with
  | evCaprow p ack => exact absurd rfl (hi p ack)
  | rdRMode n =>
    cases hg : s.honoured .reg n with
    | true => exact ⟨_, exec_rdRMode_of_honoured hg⟩
    | false => exact ⟨_, exec_rdRMode_of_dropped hg⟩
  | evDeadline target => cases target <;> exact ⟨_, rfl⟩
  | _ => exact ⟨_, rfl⟩

/-- What the meaning of an operation answers. -/
theorem exec_outcome (i : Instr) :
    (∃ t, exec i s = .next t) ∨
      ∃ p ack, i = .evCaprow p ack ∧ (exec i s = .fault (.badPhase p) ∨ exec i s = .fault .cursorOverrun) := by
  by_cases hi : ∃ p ack, i = .evCaprow p ack
  · obtain ⟨p, ack, rfl⟩ := hi
    exact (exec_evCaprow_outcome s p ack).imp_right fun hfault => ⟨p, ack, rfl, hfault⟩
  · exact .inl (exec_of_not_caprow s fun p ack h => hi ⟨p, ack, h⟩)

/-! ## Why a run in the sequencer's order raises no fault (42_tile_capture R172, 30_encoding R84) -/

/-- At point `f` of a run that began with a frame, the next capture has room: after the event of phase `p` it copies from
staging entry `20 * (p - 2)` at the latest, acknowledged or not. Phase 14 is the last to capture. -/
def FramePoint.HasRoom (f : FramePoint) (s : State) : Prop :=
  f ≠ .boot ∧ ∀ p < 14, f = .capturing p → s.captureCursor true ≤ 20 * (p - 2)

theorem FramePoint.hasRoom_of_not_capturing {f : FramePoint} (hboot : f ≠ .boot) (h : ∀ p, f ≠ .capturing p) :
    f.HasRoom s :=
  ⟨hboot, fun p _ hp => absurd hp (h p)⟩

theorem FramePoint.hasRoom_capturing {p : Nat} (h : p < 14 → s.captureCursor true ≤ 20 * (p - 2)) :
    (FramePoint.capturing p).HasRoom s :=
  ⟨FramePoint.noConfusion, fun _ hq heq => by cases heq; exact h hq⟩

section Room

variable {s} {t : State} {f g : FramePoint} {i : Instr}

theorem State.captureCursor_le (ack : Bool) : s.captureCursor ack ≤ s.captureCursor true := by
  rw [State.captureCursor_eq, State.captureCursor_eq]
  cases s.firstAfterStart <;> cases ack <;> simp

theorem State.captureCursor_congr (hcursor : t.cursor = s.cursor) (hfirst : t.firstAfterStart = s.firstAfterStart)
    (ack : Bool) : t.captureCursor ack = s.captureCursor ack := by
  rw [State.captureCursor, State.captureCursor, hcursor, hfirst]

theorem State.captureCursor_of_first (hcursor : s.cursor = 0) (hfirst : s.firstAfterStart = true) (ack : Bool) :
    s.captureCursor ack = 0 := by
  rw [State.captureCursor, if_pos hfirst, hcursor]

/-- No operation but a capture takes the next capture further. -/
theorem ControlEffect.captureCursor_le (h : ControlEffect s i t) (hi : ∀ p ack, i ≠ .evCaprow p ack) :
    t.captureCursor true ≤ s.captureCursor true := by
  cases h with
  | kept h | regDeadline h | memDeadline h | isoEnd h =>
    exact (State.captureCursor_congr (congrArg Control.cursor h) (congrArg Control.firstAfterStart h) true).le
  | started h | reset h =>
    exact (State.captureCursor_of_first (congrArg Control.cursor h) (congrArg Control.firstAfterStart h) true).le.trans
      (Nat.zero_le _)
  | captured => exact absurd rfl (hi _ _)

/-- After the start of a capture the next row is copied from the first staging row. -/
theorem exec_evCapstart_captureCursor (h : exec .evCapstart s = .next t) : t.captureCursor true = 0 := by
  cases h
  exact State.captureCursor_of_first (State.requestBus_cursor _ _) (State.requestBus_firstAfterStart _ _) true

theorem FramePoint.after_evRender {drop : Bool} (h : f.after s (.evRender drop) = some g) : g = .rendered false false := by
  obtain ⟨-, h⟩ := Option.ite_none_right_eq_some.mp h
  cases h; rfl

theorem FramePoint.after_evLatch (h : f.after s .evLatch = some g) : g = .latched s.pendingEnable false false := by
  cases f with
  | boot => cases h; rfl
  | rendered =>
    obtain ⟨-, h⟩ := Option.ite_none_right_eq_some.mp h
    cases h; rfl
  | latched | capturing => cases h

theorem FramePoint.after_evCapstart (h : f.after s .evCapstart = some g) : g = .capturing 2 := by
  cases f with
  | boot => cases h; rfl
  | latched =>
    obtain ⟨-, h⟩ := Option.ite_none_right_eq_some.mp h
    cases h; rfl
  | rendered | capturing => cases h

/-- No `EV.DEADLINE` comes among the captures of a frame. -/
theorem FramePoint.afterDeadline_not_capturing {gate : Gate} {vk : ValueKind} (hboot : f ≠ .boot)
    (h : f.afterDeadline gate vk = some g) : g ≠ .boot ∧ ∀ p, g ≠ .capturing p := by
  unfold FramePoint.afterDeadline at h
  split at h
  · exact absurd rfl hboot
  all_goals cases h
  all_goals exact ⟨FramePoint.noConfusion, fun _ => FramePoint.noConfusion⟩

/-- A capture in the order of R84 completes, and leaves room for the next. -/
theorem FramePoint.HasRoom.capture {p : BitVec 4} {ack : Bool} (hroom : f.HasRoom s)
    (hafter : f.after s (.evCaprow p ack) = some g) : ∃ t, exec (.evCaprow p ack) s = .next t ∧ g.HasRoom t := by
  obtain ⟨hboot, hcursor⟩ := hroom
  simp only [FramePoint.after, hboot, false_or, Option.ite_none_right_eq_some, Option.some.injEq] at hafter
  obtain ⟨⟨hlow, hhigh, rfl⟩, rfl⟩ := hafter
  have hnext : s.captureCursor true ≤ 20 * (p.toNat - 1 - 2) := hcursor _ (by omega) rfl
  have hack := s.captureCursor_le ack
  obtain ⟨t, hexec, -, hframe⟩ := captureRowCopies s p ack hlow hhigh fun hfirst _ => by
    rw [State.captureCursor_eq, if_pos ⟨hfirst, rfl⟩] at hnext
    omega
  refine ⟨t, hexec, FramePoint.hasRoom_capturing t fun _ => ?_⟩
  rw [← State.captureCursor_eq] at hframe
  have hnew : t.captureCursor true = s.captureCursor ack + 20 := by rw [hframe]; rfl
  omega

/-- An operation in the order of R84 completes, and what follows it has room. -/
theorem FramePoint.HasRoom.next (hroom : f.HasRoom s) (hafter : f.after s i = some g) :
    ∃ t, exec i s = .next t ∧ g.HasRoom t := by
  by_cases hi : ∃ p ack, i = .evCaprow p ack
  · obtain ⟨p, ack, rfl⟩ := hi
    exact hroom.capture hafter
  have hi : ∀ p ack, i ≠ .evCaprow p ack := fun p ack h => hi ⟨p, ack, h⟩
  obtain ⟨t, hexec⟩ := exec_of_not_caprow s hi
  obtain ⟨hboot, hcursor⟩ := hroom
  refine ⟨t, hexec, ?_⟩
  cases i with
  | evCaprow p ack => exact absurd rfl (hi p ack)
  | evRender =>
    rw [FramePoint.after_evRender hafter]
    exact FramePoint.hasRoom_of_not_capturing t FramePoint.noConfusion fun _ => FramePoint.noConfusion
  | evLatch =>
    rw [FramePoint.after_evLatch hafter]
    exact FramePoint.hasRoom_of_not_capturing t FramePoint.noConfusion fun _ => FramePoint.noConfusion
  | evDeadline =>
    obtain ⟨hg, hcapturing⟩ := FramePoint.afterDeadline_not_capturing hboot hafter
    exact FramePoint.hasRoom_of_not_capturing t hg hcapturing
  | evCapstart =>
    rw [FramePoint.after_evCapstart hafter]
    exact FramePoint.hasRoom_capturing t fun _ => (exec_evCapstart_captureCursor hexec).le
  | _ =>
    cases hafter
    exact ⟨hboot, fun p hp hf => ((exec_control hexec).captureCursor_le hi).trans (hcursor p hp hf)⟩

end Room

/-- A run in the order of R84 completes from any point that has room. -/
theorem runOps_of_frameOrdered {l : List Instr} {f : FramePoint} {s : State} (hroom : f.HasRoom s)
    (hordered : FrameOrdered f s l = true) : ∃ t, runOps l s = .next t := by
  induction l generalizing f s with
  | nil => exact ⟨s, rfl⟩
  | cons i l ih =>
    unfold FrameOrdered at hordered
    split at hordered
    · cases hordered
    · next g hafter =>
      obtain ⟨u, hexec, hu⟩ := hroom.next hafter
      simp only [hexec] at hordered
      simp only [runOps, hexec]
      exact ih hu hordered

/-- Settles O43: operation by operation, and by the room each point of a frame leaves to the cursor. -/
theorem onlyCaptureFaults : Obligations.OnlyCaptureFaults := by
  refine ⟨fun i s f h => ?_, fun i s r h => ?_, fun l s f hordered h => ?_⟩
  · obtain ⟨t, ht⟩ | ⟨p, ack, hi, hphase | hover⟩ := exec_outcome s i
    · cases ht.symm.trans h
    · cases hphase.symm.trans h; exact ⟨p, ack, hi, .inl rfl⟩
    · cases hover.symm.trans h; exact ⟨p, ack, hi, .inr rfl⟩
  · obtain ⟨t, ht⟩ | ⟨p, ack, -, hphase | hover⟩ := exec_outcome s i
    · cases ht.symm.trans h
    · cases hphase.symm.trans h
    · cases hover.symm.trans h
  · have hstart : (FramePoint.capturing 14).HasRoom s := FramePoint.hasRoom_capturing s fun hlt => absurd hlt (by decide)
    obtain ⟨t, ht⟩ := runOps_of_frameOrdered hstart hordered
    cases ht.symm.trans h

/-! ## What a reset leaves (70_reset_and_hazards R371 to R374) -/

theorem State.masked_zero (a : RegAddr) : s.masked a 0 = s.orMask a := by simp [State.masked]

/-- Clearing the registers leaves the masks. -/
theorem State.zeroRegs_masked (a : RegAddr) (v : Word) : s.zeroRegs.masked a v = s.masked a v := rfl

theorem State.zeroRegs_storeChanges (a : RegAddr) (v : Word) : s.zeroRegs.storeChanges a v = (s.masked a v != 0) := by
  rw [State.storeChanges, State.zeroRegs_masked, State.zeroRegs_reg]

/-- 0x20 keeps its zero, the others take all-ones through their masks. -/
theorem State.zeroRegs_syntheticWrites_reg (a : RegAddr) :
    s.zeroRegs.syntheticWrites.reg a = if a = 0x20 then 0 else s.masked a 0xFFFF := by
  rw [State.syntheticWrites_reg, State.zeroRegs_reg, State.zeroRegs_masked]

theorem State.zeroRegs_syntheticWrites_regDirty :
    s.zeroRegs.syntheticWrites.regDirty = true ↔ s.regDirty = true ∨ ∃ a : RegAddr, a ≠ 0x20 ∧ s.masked a 0xFFFF ≠ 0 := by
  simp [State.syntheticWrites_regDirty, State.zeroRegs_storeChanges, mem_syntheticAddrs]

theorem State.zeroRegs_syntheticWrites_out :
    s.zeroRegs.syntheticWrites.out = s.out ++
      if s.masked 0x2C 0xFFFF = 0 then [] else [.borderColor ((s.masked 0x2C 0xFFFF).extractLsb' 0 4)] := by
  rw [State.syntheticWrites_out, State.zeroRegs_storeChanges, State.zeroRegs_masked]
  simp [field]

/-- What the synthetic writes of a reset do, the registers and `reg_dirty` left to their own rules. -/
theorem State.zeroRegs_syntheticWrites_frame :
    s.zeroRegs.syntheticWrites = { s with
      regs := s.zeroRegs.syntheticWrites.regs
      regDirty := s.zeroRegs.syntheticWrites.regDirty
      mode := .fgbg
      tileDirty := s.tileDirty || (s.mode != .fgbg)
      out := s.out ++
        if s.masked 0x2C 0xFFFF = 0 then [] else [.borderColor ((s.masked 0x2C 0xFFFF).extractLsb' 0 4)] } := by
  conv_lhs => rw [State.syntheticWrites_frame]
  rw [State.syntheticWrites_pendingEnable, State.syntheticWrites_mode, State.syntheticWrites_tileDirty,
    State.zeroRegs_syntheticWrites_out]
  rfl

/-- Settles O14: the synthetic writes on cleared registers, then `ResetControl`. -/
theorem resetEventLeaves : Obligations.ResetEventLeaves := by
  intro s
  have hreg (a : RegAddr) : s.zeroRegs.syntheticWrites.resetControl.reg a = if a = 0x20 then 0 else s.masked a 0xFFFF := by
    rw [State.reg_congr (State.resetControl_regs _), State.zeroRegs_syntheticWrites_reg]
  refine ⟨_, exec_evReset s, hreg, ?_, ?_, ?_⟩
  · rw [State.regValue, hreg, if_pos rfl, State.masked_congr (s := s) (by simp), State.masked_zero]
  · rw [State.resetControl_regDirty]
    exact s.zeroRegs_syntheticWrites_regDirty
  · conv_lhs => rw [State.zeroRegs_syntheticWrites_frame]
    rfl

end Sys2Proof.Machine
end
